-- ==== Sys2Proof/Word.lean ====
section
/-! DEFINITION. The plain word types of the part (spec/09, R156) and the two index lists its tables are walked by. -/

namespace Sys2Proof

/-- One byte of a frame (R148). -/
abbrev Byte := BitVec 8

/-- A lease clock value: a 32-bit count of ticks (R120, R156). -/
abbrev Word := BitVec 32

/-- A tick count carried in a frame: 0 to 65535 (R156). -/
abbrev Ticks := BitVec 16

/-- A set of lines: bit `n` is L`n` (R156, "line set"). -/
abbrev LineSet := BitVec 16

/-- A set of ports: bit 0 is A, bit 3 is D (R156, "port set"). -/
abbrev PortSet := BitVec 4

/-- The sixteen slot numbers, ascending (R1). -/
def allSlots : List (Fin 16) := [0, 1, 2, 3, 4, 5, 6, 7, 8, 9, 10, 11, 12, 13, 14, 15]

/-- The sixteen line numbers, L0 first (chapter 5). -/
def allLines : List (Fin 16) := [0, 1, 2, 3, 4, 5, 6, 7, 8, 9, 10, 11, 12, 13, 14, 15]

/-- The four heartbeat inputs HB0 to HB3 (R107). -/
def allInputs : List (Fin 4) := [0, 1, 2, 3]

end Sys2Proof
end

