-- ==== Sys2Proof/Syntax.lean ====
section
/-! DEFINITION. The commands of the part: one constructor for each row of spec/opcode_table.json. -/

namespace Sys2Proof

/-- The four ports (R145). Port A is the supervisor port (R161). -/
inductive Port where
  | A | B | C | D
deriving DecidableEq, Repr

/-- The steps of the part (spec/95), each whole and indivisible.

The rows ACQUIRE to SOFT_RESET are the lease engine TAKING a request of that kind: the request, with
its arguments, and the port it comes from stand in a response buffer that is PENDING (R152), and the
round robin says which one is taken (R154). These rows therefore carry no operand of their own (log
entry 2); the arguments are those of R157, held in the buffer.

A slot, a line or a heartbeat input named by an event is a number, and `Instr.wellFormed` says that the
part has it. The pins that an event reads are its operands. -/
inductive Instr where
  /-- The falling edge of SELN_x (R146). -/
  | selnFall (x : Port)
  /-- The rising edge of SELN_x; `mosi` is the bits sampled on MOSI_x at the rising edges of SCLK_x in
  the transaction, first bit first (R145, R150). -/
  | transactionRelease (x : Port) (mosi : List Bool)
  /-- The engine takes an ACQUIRE (R24). -/
  | acquire
  /-- The engine takes a RENEW (R50). -/
  | renew
  /-- The engine takes a RELEASE (R58). -/
  | release
  /-- The engine takes a CANCEL (R44). -/
  | cancel
  /-- The engine takes a DRIVE (R96). -/
  | drive
  /-- The engine takes a QUERY (R19). -/
  | query
  /-- The engine takes a LIST (R135). -/
  | list
  /-- The engine takes an ACK (R136). -/
  | ack
  /-- The engine takes a MASK (R140). -/
  | mask
  /-- The engine takes a TIME (R131). -/
  | time
  /-- The engine takes a LINES (R105). -/
  | lines
  /-- The engine takes a STATUS (R159). -/
  | status
  /-- The engine takes a SET_LINE (R102). -/
  | setLine
  /-- The engine takes a SET_PORT (R163). -/
  | setPort
  /-- The engine takes a SET_HEARTBEAT (R113). -/
  | setHeartbeat
  /-- The engine takes a SET_CLOCK (R129). -/
  | setClock
  /-- The engine takes a RESUME (R127). -/
  | resume
  /-- The engine takes a REVOKE (R61). -/
  | revoke
  /-- The engine takes a DETACH (R168). -/
  | detach
  /-- The engine takes an ATTACH (R168). -/
  | attach
  /-- The engine takes a PEEK (R21). -/
  | peek
  /-- The engine takes a SOFT_RESET (R173). -/
  | softReset
  /-- The tick generator completes a tick (R120); bit `n` of `hb` is the level on HB`n` at that tick. -/
  | tick (hb : BitVec 4)
  /-- The engine takes a renewal claim of HB`input` (R110). -/
  | renewalClaim (input : Nat)
  /-- The expiry event of the lease in `slot` (R59). -/
  | expiry (slot : Nat)
  /-- The wait deadline event of the waiter in `slot` (R42). -/
  | waitDeadline (slot : Nat)
  /-- The yield deadline event of the lease in `slot` (R75). -/
  | yieldDeadline (slot : Nat)
  /-- The quarantine deadline event of L`line` (R92). -/
  | quarantineDeadline (line : Nat)
  /-- The warning event of the lease in `slot` (R54). -/
  | warningEvent (slot : Nat)
  /-- 256 local oscillator periods have passed without an edge of REFCLK (R122). -/
  | lossEvent
  /-- The reference has run for 2048 periods without a loss (R123). -/
  | qualificationEvent
  /-- The gap timer of port `x` has counted its 1024 periods (R143). -/
  | gapEnd (x : Port)
  /-- The level `high` has been seen on PEN_x for 64 local oscillator periods (R167). -/
  | penChange (x : Port) (high : Bool)
  /-- RESETN low is accepted, or power-up (R176). -/
  | deviceReset
  /-- The release of RESETN; `hb` and `pen` are the levels on HB0 to HB3 and on PEN_A to PEN_D (R177). -/
  | resetRelease (hb : BitVec 4) (pen : PortSet)
  /-- A rising edge of REFCLK (R122, R123). -/
  | refclkEdge
deriving DecidableEq, Repr

end Sys2Proof
end

