-- ==== Sys2Proof/Decode.lean ====
section
/-! DEFINITION. The command that a word spells by the bits of spec/opcode_table.json: the table gives no row any bits, so no word spells one. -/

namespace Sys2Proof

/-- spec/opcode_table.json gives none of its 38 rows any bits ("fields" is empty in every row), so no
word is a command. What a request frame spells is read by `Sys2Proof.Machine.Receiver` from the codes
and layouts of R148 to R157. -/
def decodeTableWord (_nbits _w : Nat) : Option Instr := none

end Sys2Proof
end

