-- ==== Sys2Proof/Config.lean ====
section
/-! DEFINITION. What the part fixes: its lengths and limits, each with its rule, and the one free value of the model. -/

namespace Sys2Proof.Config

/-- Local oscillator periods in a local tick (R118). -/
def localTickLength : Nat := 1000

/-- Reference periods in an uncorrected reference tick (R117). -/
def refTickLength : Nat := 32

/-- The correction sum is reduced when it reaches this value (R117). -/
def correctionLimit : Nat := 32768

/-- Local oscillator periods of silence that declare the reference lost (R122). -/
def silenceLimit : Nat := 256

/-- The last value the qualification count holds; the next edge is the qualification event (R123). -/
def lastQualification : Nat := 2047

/-- Local oscillator periods in a gap (R142). -/
def gapLength : Nat := 1024

/-- The largest argument length of a request frame (R148). -/
def maxArguments : Nat := 24

/-- The largest magnitude of the trim (R117, R129). -/
def maxTrim : Int := 255

/-- The largest warning margin and the largest yield window (R54, R70). -/
def maxMargin : Nat := 4095

/-- The largest quota (R18). -/
def maxQuota : Nat := 16

/-- The shortest term (R2, R25). -/
def minTerm : Nat := 8

/-- Rounds that settle one event (R41): each round but the last ends a lease, and there are sixteen. -/
def settleRounds : Nat := 17

/-- FREE VALUE (log entry 4). Which of several events that stand open together the part takes first,
where no command of the sender says so: "the device does not choose between them" (R60). Applied to
the model's own counter `State.choices`; nothing can evaluate it. -/
opaque eventChoice : Nat → Nat

end Sys2Proof.Config
end

