-- ==== Sys2Proof/Machine/State.lean ====
section
/-! DEFINITION. The state of the part as plain data, the outcomes' reasons, and the state of device reset. -/

namespace Sys2Proof.Machine

/-! ## The lease table (chapter 1) -/

/-- The stages in the life of a slot (R2, R11). -/
inductive LeaseState where
  | free | waiting | active | yielding | ended
deriving DecidableEq, Repr

/-- Why a lease ended (R2). -/
inductive Cause where
  | expired | revoked | preempted | waitExpired
deriving DecidableEq, Repr

/-- The five notice kinds that belong to a lease: which of them are pending, or named, or masked (R133). -/
structure Notices where
  granted   : Bool := false
  warning   : Bool := false
  yield     : Bool := false
  withdrawn : Bool := false
  ended     : Bool := false
deriving DecidableEq, Repr

/-- The fields that a lease has while it holds its lines (R3: ACTIVE and YIELDING). -/
structure Holding where
  /-- Lease clock value at which the lease expires (R48). -/
  expiry : Word
  /-- Renewals taken since the grant, at most 255 (R53). -/
  count  : Byte
  /-- WARNING has been posted since the last grant or renewal (R54). -/
  warned : Bool
deriving DecidableEq, Repr

/-- The state of a lease with exactly the fields that R3 makes present in it. -/
inductive Phase where
  /-- WAITING; the wait deadline is present when the wait limit is. -/
  | waiting (deadline : Option Word)
  /-- ACTIVE. -/
  | active (h : Holding)
  /-- YIELDING, with its yield deadline. -/
  | yielding (h : Holding) (deadline : Word)
  /-- ENDED, with the renewal count it ended with and its end cause. -/
  | ended (count : Byte) (cause : Cause)
deriving DecidableEq, Repr

/-- A lease record (R2), less the fields that belong to the slot. -/
structure Lease where
  holder    : Port
  tag       : Byte
  lines     : LineSet
  level     : Fin 4
  yieldable : Bool
  term      : Ticks
  waitLimit : Option Ticks
  source    : Option (Fin 4)
  cap       : Option Byte
  /-- The pending notice flags (R2). -/
  flags     : Notices
  phase     : Phase
deriving DecidableEq, Repr

/-- A slot: its generation, and the lease it holds when it is not FREE (R1). -/
structure Slot where
  gen   : Byte
  lease : Option Lease
deriving DecidableEq, Repr

/-! ## The lines (chapter 5) -/

/-- What a line drives: low, high, or nothing (R88). -/
inductive Drive where
  | low | high | off
deriving DecidableEq, Repr

/-- A pulse pattern (R98). -/
structure Pulse where
  /-- PULSE_HIGH: the active level is HIGH and the inactive level LOW; else PULSE_LOW. -/
  activeHigh : Bool
  delay      : Byte
  onTime     : Byte
  period     : Byte
  /-- The lease clock value of the tick that is the phase origin. -/
  origin     : Word
  /-- The count `k` of ticks from the origin; none before the origin. -/
  k          : Option Nat
deriving DecidableEq, Repr

/-- The holder drive of a bound line (R86). -/
inductive HolderDrive where
  | static (d : Drive)
  | pulse (p : Pulse)
deriving DecidableEq, Repr

/-- The occupancy of a line, with what is present in it alone (R86). -/
inductive Occupancy where
  | free
  | bound (slot : Fin 16) (drive : HolderDrive)
  | quarantine (deadline : Word)
deriving DecidableEq, Repr

/-- One output line: the engine's part and the line stage's part (R86). -/
structure Line where
  occ     : Occupancy
  rest    : Drive
  fault   : Drive
  /-- Quarantine length in ticks. -/
  qlen    : Byte
  access  : PortSet
  /-- The current drive, that appears on the pin. -/
  current : Drive
deriving DecidableEq, Repr

/-! ## Requests, responses and the ports (chapters 8 to 10) -/

/-- The status codes (section 9.8). -/
inductive Status where
  | ok | queued | format | unknown | privilege | range | level | denied | quota | full | conflict
  | self | stale | notHolder | state | yielding | limit
deriving DecidableEq, Repr

/-- A handle as a frame carries it: slot byte and generation (R8, R156). -/
structure Handle where
  slot : Byte
  gen  : Byte
deriving DecidableEq, Repr

/-- The twelve argument bytes of an ACQUIRE (R157). -/
structure AcquireArgs where
  mode      : Byte
  lines     : LineSet
  level     : Byte
  options   : Byte
  term      : Ticks
  tag       : Byte
  waitLimit : Ticks
  source    : Byte
  cap       : Byte
deriving DecidableEq, Repr

/-- A well-formed request: command code and arguments, laid out as R157 gives. -/
inductive Request where
  | acquire (a : AcquireArgs)
  | renew (h : Handle) (newTerm : Ticks)
  | release (h : Handle)
  | cancel (h : Handle)
  | drive (h : Handle) (lines : LineSet) (kind delay onTime period : Byte)
  | query (h : Handle)
  | list
  | ack (target gen kinds : Byte)
  | mask (kinds mode : Byte)
  | time
  | lines
  | status
  | setLine (lines : LineSet) (keep rest fault qlen access : Byte)
  | setPort (port keep quota ceiling : Byte) (margin window : Ticks)
  | setHeartbeat (inputs keep enable edge debounce : Byte)
  | setClock (keep policy mode : Byte) (trim : Ticks)
  | resume
  | revoke (h : Handle)
  | detach (port : Byte)
  | attach (port : Byte)
  | peek (slot : Byte)
  | softReset
deriving DecidableEq, Repr

/-- A response frame as it stands in a buffer, with the CRC computed when it was placed (R148, R149). -/
structure Response where
  echo   : Byte
  status : Status
  data   : List Byte
  crc    : Byte
deriving DecidableEq, Repr

/-- A response buffer (section 9.4). -/
inductive Buffer where
  | empty
  | pending (r : Request)
  | ready (r : Response)
deriving DecidableEq, Repr

/-- Where port x stands between the edges of SELN_x (R145, R146). -/
inductive Transaction where
  /-- SELN_x is high. -/
  | idle
  /-- SELN_x is low, in a transaction that is ignored in whole. -/
  | ignored
  /-- SELN_x is low, and the port shifts out this copy of its buffer. -/
  | shifting (copy : Buffer)
deriving DecidableEq, Repr

/-- The attention mode (R140). -/
inductive AttnMode where
  | level | gap
deriving DecidableEq, Repr

/-- What the part holds for one port: settings (R162), attach state (R167), receiver and buffer
(chapter 9), attention unit (chapter 8). -/
structure PortState where
  quota       : Nat
  ceiling     : Fin 4
  margin      : Ticks
  window      : Ticks
  /-- Accepted level of PEN_x, HIGH as true. -/
  pen         : Bool
  cmdDetach   : Bool
  buffer      : Buffer
  transaction : Transaction
  /-- The masked kinds that belong to leases. -/
  mask        : Notices
  /-- CLOCK is masked. -/
  maskClock   : Bool
  mode        : AttnMode
  clockFlag   : Bool
  /-- The gap timer: local oscillator periods counted in the gap that is running. -/
  gap         : Option Nat
  /-- ATTN_x is asserted. -/
  attn        : Bool
deriving DecidableEq, Repr

/-- One thing of a kind for each port. -/
structure PerPort (α : Type) where
  a : α
  b : α
  c : α
  d : α
deriving DecidableEq, Repr

/-! ## Heartbeat inputs (chapter 6) -/

/-- The edge selection of an input (R107). -/
inductive EdgeSel where
  | rising | falling | both
deriving DecidableEq, Repr

/-- What the part holds for one heartbeat input (R107, R110). -/
structure HbInput where
  enabled  : Bool
  edge     : EdgeSel
  debounce : Nat
  /-- Accepted level, HIGH as true. -/
  level    : Bool
  stable   : Nat
  /-- The next sample is a seeding sample (R111). -/
  seeding  : Bool
  /-- Renewal claims of this input that the engine has not yet taken (R109, R110). -/
  claims   : Nat
  /-- The level on the pin, as the last event that read it found it (log entry 6). -/
  pin      : Bool
deriving DecidableEq, Repr

/-! ## The lease clock (chapter 7) -/

/-- The clock states (R124). -/
inductive ClockState where
  | start | reference | fallback | ready
deriving DecidableEq, Repr

/-- The fallback policy (R125). -/
inductive Policy where
  | continue | freeze
deriving DecidableEq, Repr

/-- The resume mode (R126). -/
inductive ResumeMode where
  | manual | auto
deriving DecidableEq, Repr

/-- The tick in progress: periods of its source counted, and its length (R116). -/
structure TickProgress where
  counted : Nat
  length  : Nat
deriving DecidableEq, Repr

/-- The lease clock block (R132). -/
structure Clock where
  state      : ClockState
  /-- The lease clock. -/
  count      : Word
  policy     : Policy
  resume     : ResumeMode
  trim       : Int
  correction : Nat
  silence    : Nat
  /-- The reference condition is PRESENT; else LOST. -/
  present    : Bool
  /-- The qualification count; none is "unstarted". -/
  qual       : Option Nat
  /-- The tick in progress; none while no tick is being made. -/
  tick       : Option TickProgress
deriving DecidableEq, Repr

/-! ## The whole part -/

/-- The state of the part, and the queue of the commands that wait for it. -/
structure State where
  /-- The part is held in device reset (R176). -/
  inReset : Bool
  slots   : Vector Slot 16
  /-- The wait queue, head first: slots in the WAITING state (R34). -/
  queue   : List (Fin 16)
  lines   : Vector Line 16
  ports   : PerPort PortState
  /-- The round-robin pointer (R154). -/
  pointer : Port
  inputs  : Vector HbInput 4
  clock   : Clock
  /-- The model's own: how many free choices have been used up (log entry 4). -/
  choices : Nat
  /-- The commands that wait, first in, first out. -/
  pending : List Instr
deriving DecidableEq, Repr

/-- The part has no fault of its own: nothing in the spec stops it. No meaning raises one. -/
inductive Fault where
deriving DecidableEq, Repr

/-- Why a command has no meaning in the model. -/
inductive Refusal where
  /-- Raised by an arm of `exec` whose command has no meaning yet. Safe: the run stops. No arm raises it now. -/
  | notModelled (mnemonic : String)
deriving DecidableEq, Repr

/-! ## Reset values -/

/-- A slot after device reset (R22). -/
def Slot.reset : Slot := { gen := 0, lease := none }

/-- A line after device reset (R106). -/
def Line.reset : Line :=
  { occ := .free, rest := .off, fault := .off, qlen := 0, access := 0b1111, current := .off }

/-- A port after device reset (R144, R160, R162, R167), with the level ceiling given. The accepted level of
PEN_x has no value before the release of RESETN samples it: LOW here (log entry 3, DESIGN CHOICE). -/
def PortState.reset (ceiling : Fin 4) : PortState :=
  { quota := 4, ceiling := ceiling, margin := 0, window := 256, pen := false, cmdDetach := false,
    buffer := .empty, transaction := .idle, mask := {}, maskClock := false, mode := .level,
    clockFlag := false, gap := none, attn := false }

/-- A heartbeat input after device reset (R107). The accepted level and the pin have no value before the
release of RESETN samples them: LOW here (log entry 3, DESIGN CHOICE). -/
def HbInput.reset : HbInput :=
  { enabled := false, edge := .rising, debounce := 3, level := false, stable := 0, seeding := false,
    claims := 0, pin := false }

/-- The lease clock block while RESETN is low (R132). -/
def Clock.reset : Clock :=
  { state := .start, count := 0, policy := .continue, resume := .manual, trim := 0, correction := 0,
    silence := 0, present := false, qual := none, tick := none }

/-- The part held in device reset, as power-up leaves it (R176): every chip select high and no command
waiting. `RESET_RELEASE` starts it (log entry 1). -/
def State.reset : State :=
  { inReset := true
    slots := Vector.replicate 16 Slot.reset
    queue := []
    lines := Vector.replicate 16 Line.reset
    ports := { a := PortState.reset 3, b := PortState.reset 1, c := PortState.reset 1, d := PortState.reset 1 }
    pointer := .D
    inputs := Vector.replicate 4 HbInput.reset
    clock := Clock.reset
    choices := 0
    pending := [] }

/-! ## Reading and updating one part of the state -/

/-- The thing that port `p` has. -/
def PerPort.get {α : Type} (t : PerPort α) : Port → α
  | .A => t.a
  | .B => t.b
  | .C => t.c
  | .D => t.d

/-- Each port's thing from a function of the port. -/
def PerPort.tabulate {α : Type} (f : Port → α) : PerPort α :=
  { a := f .A, b := f .B, c := f .C, d := f .D }

/-- Slot `i` of the table. -/
def State.slot (s : State) (i : Fin 16) : Slot := s.slots[i]

/-- Line `l`. -/
def State.line (s : State) (l : Fin 16) : Line := s.lines[l]

/-- What the part holds for port `p`. -/
def State.port (s : State) (p : Port) : PortState := s.ports.get p

/-- Heartbeat input `n`. -/
def State.input (s : State) (n : Fin 4) : HbInput := s.inputs[n]

/-- Every slot changed by `f`. -/
def State.mapSlots (s : State) (f : Fin 16 → Slot → Slot) : State :=
  { s with slots := Vector.ofFn fun i => f i (s.slot i) }

/-- Every line changed by `f`. -/
def State.mapLines (s : State) (f : Fin 16 → Line → Line) : State :=
  { s with lines := Vector.ofFn fun l => f l (s.line l) }

/-- Every port changed by `f`. -/
def State.mapPorts (s : State) (f : Port → PortState → PortState) : State :=
  { s with ports := PerPort.tabulate fun p => f p (s.port p) }

/-- Every heartbeat input changed by `f`. -/
def State.mapInputs (s : State) (f : Fin 4 → HbInput → HbInput) : State :=
  { s with inputs := Vector.ofFn fun n => f n (s.input n) }

/-- Slot `i` changed by `f`. -/
def State.updSlot (s : State) (i : Fin 16) (f : Slot → Slot) : State :=
  s.mapSlots fun j x => if j = i then f x else x

/-- Port `p` changed by `f`. -/
def State.updPort (s : State) (p : Port) (f : PortState → PortState) : State :=
  s.mapPorts fun q x => if q = p then f x else x

/-- The wait queue replaced. -/
def State.setQueue (s : State) (q : List (Fin 16)) : State := { s with queue := q }

/-- The round-robin pointer replaced. -/
def State.setPointer (s : State) (p : Port) : State := { s with pointer := p }

/-- The lease clock block changed by `f`. -/
def State.updClock (s : State) (f : Clock → Clock) : State := { s with clock := f s.clock }

end Sys2Proof.Machine
end

