-- ==== Sys2Proof/Machine/Operands.lean ====
section
/-! DEFINITION. The items that arguments and response data are built from (R156), the argument layout of every command (R157), the codes of section 9.8, and the CRC (R149). -/

namespace Sys2Proof.Machine

/-! ## Bytes and multi-byte items (R156) -/

/-- Two bytes, most significant first. -/
def join16 (hi lo : Byte) : BitVec 16 := hi ++ lo

/-- The two bytes of an item, most significant first. -/
def bytes16 (x : BitVec 16) : List Byte := [x.extractLsb' 8 8, x.extractLsb' 0 8]

/-- The four bytes of a lease clock value, most significant first. -/
def bytes32 (x : Word) : List Byte :=
  [x.extractLsb' 24 8, x.extractLsb' 16 8, x.extractLsb' 8 8, x.extractLsb' 0 8]

/-- Eight bits, most significant first, as a byte (R145). -/
def byteOfBits (b7 b6 b5 b4 b3 b2 b1 b0 : Bool) : Byte :=
  BitVec.ofBool b7 ++ BitVec.ofBool b6 ++ BitVec.ofBool b5 ++ BitVec.ofBool b4 ++
    BitVec.ofBool b3 ++ BitVec.ofBool b2 ++ BitVec.ofBool b1 ++ BitVec.ofBool b0

/-- The complete bytes of the bits sampled on MOSI_x; the bits after the last complete byte are
discarded (R145). -/
def bytesOfBits : List Bool → List Byte
  | b7 :: b6 :: b5 :: b4 :: b3 :: b2 :: b1 :: b0 :: rest =>
    byteOfBits b7 b6 b5 b4 b3 b2 b1 b0 :: bytesOfBits rest
  | _ => []

/-- "yes/no": no 00h, yes 01h. -/
def yesNo (b : Bool) : Byte := if b then 1 else 0

/-- Bit `n` of a byte, as a number of that weight when it is set. -/
def bitAt (n : Nat) (b : Bool) : Byte := if b then 1 <<< n else 0

/-! ## Codes of ports, states, drives and kinds (R156) -/

/-- A 0, B 1, C 2, D 3. -/
def portByte : Port → Byte
  | .A => 0 | .B => 1 | .C => 2 | .D => 3

/-- The bit of a port in a port set. -/
def portBit : Port → Nat
  | .A => 0 | .B => 1 | .C => 2 | .D => 3

/-- The port of a port byte; a value above 03h names none. -/
def portOfByte (b : Byte) : Option Port :=
  match b.toNat with
  | 0 => some .A
  | 1 => some .B
  | 2 => some .C
  | 3 => some .D
  | _ => none

/-- FREE 0, WAITING 1, ACTIVE 2, YIELDING 3, ENDED 4. -/
def LeaseState.toByte : LeaseState → Byte
  | .free => 0 | .waiting => 1 | .active => 2 | .yielding => 3 | .ended => 4

/-- EXPIRED 1, REVOKED 2, PREEMPTED 3, WAIT_EXPIRED 4. -/
def Cause.toByte : Cause → Byte
  | .expired => 1 | .revoked => 2 | .preempted => 3 | .waitExpired => 4

/-- An end cause, or 0 for none. -/
def causeByte : Option Cause → Byte
  | none => 0
  | some c => c.toByte

/-- The pending flags in bits 0 to 4, GRANTED first. -/
def Notices.toByte (n : Notices) : Byte :=
  bitAt 0 n.granted ||| bitAt 1 n.warning ||| bitAt 2 n.yield ||| bitAt 3 n.withdrawn ||| bitAt 4 n.ended

/-- The slot kinds named by a notice-kind byte. -/
def noticesOfByte (b : Byte) : Notices :=
  { granted := b.getLsbD 0, warning := b.getLsbD 1, yield := b.getLsbD 2, withdrawn := b.getLsbD 3,
    ended := b.getLsbD 4 }

/-- Flags with cause: bits 0 to 4 the flags, bits 5 to 7 the end cause. -/
def flagsWithCause (n : Notices) (c : Option Cause) : Byte := n.toByte ||| (causeByte c <<< 5)

/-- LOW 0, HIGH 1, OFF 2. -/
def Drive.toByte : Drive → Byte
  | .low => 0 | .high => 1 | .off => 2

/-- The drive of a drive byte; a value above 2 is none. -/
def driveOfByte (b : Byte) : Option Drive :=
  match b.toNat with
  | 0 => some .low
  | 1 => some .high
  | 2 => some .off
  | _ => none

/-- The drive kind of a holder drive: LOW 0, HIGH 1, OFF 2, PULSE_HIGH 3, PULSE_LOW 4. -/
def HolderDrive.kindByte : HolderDrive → Byte
  | .static d => d.toByte
  | .pulse p => if p.activeHigh then 3 else 4

/-- START 0, REFERENCE 1, FALLBACK 2, READY 3. -/
def ClockState.toByte : ClockState → Byte
  | .start => 0 | .reference => 1 | .fallback => 2 | .ready => 3

/-- RISING 00h, FALLING 01h, BOTH 02h (R157). -/
def edgeOfByte (b : Byte) : Option EdgeSel :=
  match b.toNat with
  | 0 => some .rising
  | 1 => some .falling
  | 2 => some .both
  | _ => none

/-- CONTINUE 00h, FREEZE 01h (R157). -/
def policyOfByte (b : Byte) : Option Policy :=
  match b.toNat with
  | 0 => some .continue
  | 1 => some .freeze
  | _ => none

/-- MANUAL 00h, AUTO 01h (R157). -/
def resumeOfByte (b : Byte) : Option ResumeMode :=
  match b.toNat with
  | 0 => some .manual
  | 1 => some .auto
  | _ => none

/-- LEVEL 00h, GAP 01h (R157). -/
def attnModeOfByte (b : Byte) : Option AttnMode :=
  match b.toNat with
  | 0 => some .level
  | 1 => some .gap
  | _ => none

/-- The code of an attention mode (R157). -/
def AttnMode.toByte : AttnMode → Byte
  | .level => 0 | .gap => 1

/-- The slot of a slot byte; a value above 15 names none (R157). -/
def slotOfByte (b : Byte) : Option (Fin 16) := if h : b.toNat < 16 then some ⟨b.toNat, h⟩ else none

/-- The byte of a slot number. -/
def slotByte (i : Fin 16) : Byte := BitVec.ofNat 8 i.val

/-- A heartbeat input in response data: FFh for absent. -/
def sourceByte : Option (Fin 4) → Byte
  | none => 0xFF
  | some n => BitVec.ofNat 8 n.val

/-- The status codes of section 9.8. -/
def Status.toByte : Status → Byte
  | .ok => 0x00 | .queued => 0x01 | .format => 0x10 | .unknown => 0x11 | .privilege => 0x12
  | .range => 0x13 | .level => 0x20 | .denied => 0x21 | .quota => 0x22 | .full => 0x23
  | .conflict => 0x24 | .self => 0x25 | .stale => 0x30 | .notHolder => 0x31 | .state => 0x32
  | .yielding => 0x33 | .limit => 0x34

/-! ## The CRC (R149) -/

/-- One shift of the check register. -/
def crcShift (r : Byte) : Byte := if r.msb then (r <<< 1) ^^^ 0x07 else r <<< 1

/-- The check register after one byte. -/
def crcByte (r b : Byte) : Byte :=
  crcShift (crcShift (crcShift (crcShift (crcShift (crcShift (crcShift (crcShift (r ^^^ b))))))))

/-- The CRC over bytes, first byte first: initial value FFh, no reflection, no final inversion. -/
def crcOf (bytes : List Byte) : Byte := bytes.foldl crcByte 0xFF

/-! ## The commands (section 9.8) and their argument layouts (R157) -/

/-- The commands of the catalogue, less NOP, which is a read. -/
inductive Command where
  | acquire | renew | release | cancel | drive | query | list | ack | mask | time | lines | status
  | setLine | setPort | setHeartbeat | setClock | resume | revoke | detach | attach | peek | softReset
deriving DecidableEq, Repr

/-- The command of a code; none when the code is not in the catalogue. -/
def commandOfCode (b : Byte) : Option Command :=
  match b.toNat with
  | 0x10 => some .acquire
  | 0x11 => some .renew
  | 0x12 => some .release
  | 0x13 => some .cancel
  | 0x14 => some .drive
  | 0x15 => some .query
  | 0x16 => some .list
  | 0x17 => some .ack
  | 0x18 => some .mask
  | 0x19 => some .time
  | 0x1A => some .lines
  | 0x1B => some .status
  | 0x40 => some .setLine
  | 0x41 => some .setPort
  | 0x42 => some .setHeartbeat
  | 0x43 => some .setClock
  | 0x44 => some .resume
  | 0x45 => some .revoke
  | 0x46 => some .detach
  | 0x47 => some .attach
  | 0x48 => some .peek
  | 0x49 => some .softReset
  | _ => none

/-- The code of a command. -/
def Command.code : Command → Byte
  | .acquire => 0x10 | .renew => 0x11 | .release => 0x12 | .cancel => 0x13 | .drive => 0x14
  | .query => 0x15 | .list => 0x16 | .ack => 0x17 | .mask => 0x18 | .time => 0x19 | .lines => 0x1A
  | .status => 0x1B | .setLine => 0x40 | .setPort => 0x41 | .setHeartbeat => 0x42 | .setClock => 0x43
  | .resume => 0x44 | .revoke => 0x45 | .detach => 0x46 | .attach => 0x47 | .peek => 0x48
  | .softReset => 0x49

/-- The supervisor commands: codes 40h to 49h (R161). -/
def Command.supervisor : Command → Bool
  | .setLine | .setPort | .setHeartbeat | .setClock | .resume | .revoke | .detach | .attach | .peek
  | .softReset => true
  | .acquire | .renew | .release | .cancel | .drive | .query | .list | .ack | .mask | .time | .lines
  | .status => false

/-- The request that argument bytes make; none when their number is not the one the command takes (R157). -/
def Request.parse (c : Command) (args : List Byte) : Option Request :=
  match c with
  | .acquire =>
    match args with
    | [mode, l1, l0, level, options, t1, t0, tag, w1, w0, source, cap] =>
      some (.acquire
        { mode := mode, lines := join16 l1 l0, level := level, options := options, term := join16 t1 t0,
          tag := tag, waitLimit := join16 w1 w0, source := source, cap := cap })
    | _ => none
  | .renew =>
    match args with
    | [slot, gen, t1, t0] => some (.renew { slot := slot, gen := gen } (join16 t1 t0))
    | _ => none
  | .release =>
    match args with
    | [slot, gen] => some (.release { slot := slot, gen := gen })
    | _ => none
  | .cancel =>
    match args with
    | [slot, gen] => some (.cancel { slot := slot, gen := gen })
    | _ => none
  | .drive =>
    match args with
    | [slot, gen, l1, l0, kind, delay, onTime, period] =>
      some (.drive { slot := slot, gen := gen } (join16 l1 l0) kind delay onTime period)
    | _ => none
  | .query =>
    match args with
    | [slot, gen] => some (.query { slot := slot, gen := gen })
    | _ => none
  | .list =>
    match args with
    | [] => some .list
    | _ => none
  | .ack =>
    match args with
    | [target, gen, kinds] => some (.ack target gen kinds)
    | _ => none
  | .mask =>
    match args with
    | [kinds, mode] => some (.mask kinds mode)
    | _ => none
  | .time =>
    match args with
    | [] => some .time
    | _ => none
  | .lines =>
    match args with
    | [] => some .lines
    | _ => none
  | .status =>
    match args with
    | [] => some .status
    | _ => none
  | .setLine =>
    match args with
    | [l1, l0, keep, rest, fault, qlen, access] => some (.setLine (join16 l1 l0) keep rest fault qlen access)
    | _ => none
  | .setPort =>
    match args with
    | [port, keep, quota, ceiling, m1, m0, w1, w0] =>
      some (.setPort port keep quota ceiling (join16 m1 m0) (join16 w1 w0))
    | _ => none
  | .setHeartbeat =>
    match args with
    | [inputs, keep, enable, edge, debounce] => some (.setHeartbeat inputs keep enable edge debounce)
    | _ => none
  | .setClock =>
    match args with
    | [keep, policy, mode, t1, t0] => some (.setClock keep policy mode (join16 t1 t0))
    | _ => none
  | .resume =>
    match args with
    | [] => some .resume
    | _ => none
  | .revoke =>
    match args with
    | [slot, gen] => some (.revoke { slot := slot, gen := gen })
    | _ => none
  | .detach =>
    match args with
    | [port] => some (.detach port)
    | _ => none
  | .attach =>
    match args with
    | [port] => some (.attach port)
    | _ => none
  | .peek =>
    match args with
    | [slot] => some (.peek slot)
    | _ => none
  | .softReset =>
    match args with
    | [] => some .softReset
    | _ => none

/-- The command that a request is one of. -/
def Request.command : Request → Command
  | .acquire _ => .acquire
  | .renew _ _ => .renew
  | .release _ => .release
  | .cancel _ => .cancel
  | .drive _ _ _ _ _ _ => .drive
  | .query _ => .query
  | .list => .list
  | .ack _ _ _ => .ack
  | .mask _ _ => .mask
  | .time => .time
  | .lines => .lines
  | .status => .status
  | .setLine _ _ _ _ _ _ => .setLine
  | .setPort _ _ _ _ _ _ => .setPort
  | .setHeartbeat _ _ _ _ _ => .setHeartbeat
  | .setClock _ _ _ _ => .setClock
  | .resume => .resume
  | .revoke _ => .revoke
  | .detach _ => .detach
  | .attach _ => .attach
  | .peek _ => .peek
  | .softReset => .softReset

/-- The step of the part that takes a request. -/
def Request.instr : Request → Instr
  | .acquire _ => .acquire
  | .renew _ _ => .renew
  | .release _ => .release
  | .cancel _ => .cancel
  | .drive _ _ _ _ _ _ => .drive
  | .query _ => .query
  | .list => .list
  | .ack _ _ _ => .ack
  | .mask _ _ => .mask
  | .time => .time
  | .lines => .lines
  | .status => .status
  | .setLine _ _ _ _ _ _ => .setLine
  | .setPort _ _ _ _ _ _ => .setPort
  | .setHeartbeat _ _ _ _ _ => .setHeartbeat
  | .setClock _ _ _ _ => .setClock
  | .resume => .resume
  | .revoke _ => .revoke
  | .detach _ => .detach
  | .attach _ => .attach
  | .peek _ => .peek
  | .softReset => .softReset

/-! ## The arguments of ACQUIRE as the engine reads them (R23, R157) -/

/-- Options bit 0. -/
def AcquireArgs.yieldable (a : AcquireArgs) : Bool := a.options.getLsbD 0

/-- The wait limit, when options bit 1 marks it present. -/
def AcquireArgs.limit (a : AcquireArgs) : Option Ticks := if a.options.getLsbD 1 then some a.waitLimit else none

/-- The byte of the renewal source, when options bit 2 marks it present. -/
def AcquireArgs.sourceByte (a : AcquireArgs) : Option Byte := if a.options.getLsbD 2 then some a.source else none

/-- The renewal cap, when options bit 3 marks it present. -/
def AcquireArgs.renewalCap (a : AcquireArgs) : Option Byte := if a.options.getLsbD 3 then some a.cap else none

/-- The heartbeat input that the renewal source names. -/
def AcquireArgs.renewalSource (a : AcquireArgs) : Option (Fin 4) :=
  match a.sourceByte with
  | none => none
  | some b => if h : b.toNat < 4 then some ⟨b.toNat, h⟩ else none

/-- The level, for a level byte 0 to 3. -/
def AcquireArgs.claimLevel (a : AcquireArgs) : Option (Fin 4) :=
  if h : a.level.toNat < 4 then some ⟨a.level.toNat, h⟩ else none

/-- The mode is TRY (01h). -/
def AcquireArgs.isTry (a : AcquireArgs) : Bool := a.mode == 1

/-- The mode is WAIT (02h). -/
def AcquireArgs.isWait (a : AcquireArgs) : Bool := a.mode == 2

/-- The first check of an ACQUIRE fails (R25). -/
def AcquireArgs.outOfRange (a : AcquireArgs) : Bool :=
  a.lines == 0 || decide (a.term.toNat < Config.minTerm) || a.claimLevel.isNone || !(a.isTry || a.isWait)
    || (a.limit.isSome && a.isTry) || a.limit == some 0 || a.renewalCap == some 0
    || (a.sourceByte.isSome && a.renewalSource.isNone)

/-! ## Settings that may be marked keep (R102, R113, R129, R163) -/

/-- A setting of a configuration command: kept, or given a value that its item defines, or given a value
that it does not define. -/
inductive Setting (α : Type) where
  | keep
  | to (x : α)
  | undefined
deriving DecidableEq, Repr

/-- The setting read from a byte, unless its keep flag is set: then it is neither checked nor applied. -/
def Setting.read {α : Type} (kept : Bool) (value : Option α) : Setting α :=
  if kept then .keep
  else
    match value with
    | some x => .to x
    | none => .undefined

/-- The setting's value is one that its item does not define. -/
def Setting.bad {α : Type} : Setting α → Bool
  | .undefined => true
  | .keep | .to _ => false

/-- The value that a setting leaves in force, over the one it finds. -/
def Setting.over {α : Type} (x : α) : Setting α → α
  | .to y => y
  | .keep | .undefined => x

/-- A number within an inclusive limit. -/
def upTo (limit n : Nat) : Option Nat := if n ≤ limit then some n else none

/-- The trim of its two bytes: signed two's complement, −255 to +255 (R156). -/
def trimOf (t : Ticks) : Option Int := if t.toInt.natAbs ≤ 255 then some t.toInt else none

end Sys2Proof.Machine
end

