-- ==== Sys2Proof/Machine/Flags.lean ====
section
/-! DEFINITION. Notice flags, and the attention units that turn them into ATTN_A to ATTN_D (chapter 8). -/

namespace Sys2Proof.Machine

/-! ## Sets of notice kinds (R133) -/

/-- The set that holds GRANTED alone. -/
def Notices.grantedOnly : Notices := { granted := true }

/-- The set that holds ENDED alone (R13). -/
def Notices.endedOnly : Notices := { ended := true }

/-- The kinds of `n` that `m` does not hold. -/
def Notices.minus (n m : Notices) : Notices :=
  { granted := n.granted && !m.granted
    warning := n.warning && !m.warning
    yield := n.yield && !m.yield
    withdrawn := n.withdrawn && !m.withdrawn
    ended := n.ended && !m.ended }

/-- The set holds some kind. -/
def Notices.any (n : Notices) : Bool := n.granted || n.warning || n.yield || n.withdrawn || n.ended

/-! ## The pending notices of a port (R133) -/

/-- The slot holds a lease of port `p`. -/
def Slot.heldBy (x : Slot) (p : Port) : Bool :=
  match x.lease with
  | some l => l.holder == p
  | none => false

/-- The pending flags of a slot that are port `p`'s: those of a lease that it holds. -/
def Slot.flagsFor (x : Slot) (p : Port) : Notices :=
  match x.lease with
  | some l => if l.holder = p then l.flags else {}
  | none => {}

/-- Port x is attached while the accepted level of PEN_x is HIGH and its command-detach flag is clear,
once the part runs (R167, R176). -/
def State.attached (s : State) (p : Port) : Bool := !s.inReset && (s.port p).pen && !(s.port p).cmdDetach

/-- The port has at least one unmasked pending notice (R140, R141). -/
def State.unmaskedPending (s : State) (p : Port) : Bool :=
  ((s.port p).clockFlag && !(s.port p).maskClock)
    || allSlots.any fun i => (((s.slot i).flagsFor p).minus (s.port p).mask).any

/-! ## The attention output (R141 to R143) -/

/-- ATTN_x as R141 gives it for the state that a whole event leaves. -/
def State.attnLevel (s : State) (p : Port) : Bool :=
  s.attached p && s.unmaskedPending p
    && (match (s.port p).mode with
        | .level => true
        | .gap => (s.port p).gap.isNone)

/-- Between the states before and after an event, some unmasked flag of the port went from clear to
pending: the event posted it (R142, log entry 11). -/
def State.freshlyPosted (before after : State) (p : Port) : Bool :=
  ((after.port p).clockFlag && !(before.port p).clockFlag && !(after.port p).maskClock)
    || allSlots.any fun i =>
      ((((after.slot i).flagsFor p).minus ((before.slot i).flagsFor p)).minus (after.port p).mask).any

/-- The event starts a gap on the port (R142): the port is attached, in GAP mode, with no gap running, and
either the event is an accepted ACK of the port that leaves an unmasked notice pending, or it posted an
unmasked notice while ATTN_x was asserted. -/
def State.startsGap (before after : State) (acked : Option Port) (p : Port) : Bool :=
  after.attached p && (after.port p).mode == .gap && (after.port p).gap.isNone
    && ((acked == some p && after.unmaskedPending p)
      || (before.freshlyPosted after p && (before.port p).attn))

/-- The attention units after an event that led from `before` to `after` (R141): gaps that it starts
begin, and each ATTN_x is computed once, from the state that the whole event left. `acked` is the port
whose accepted ACK the event was. -/
def State.attend (before : State) (acked : Option Port) (after : State) : State :=
  let gapped := after.mapPorts fun p x =>
    if before.startsGap after acked p then { x with gap := some 0 } else x
  gapped.mapPorts fun p x => { x with attn := gapped.attnLevel p }

/-- CLOCK is posted to every attached port and to no detached one (R128). -/
def State.postClock (s : State) : State :=
  s.mapPorts fun p x => if s.attached p then { x with clockFlag := true } else x

end Sys2Proof.Machine
end

