-- ==== Sys2Proof/Machine/Ops.lean ====
section
/-! DEFINITION. The shared operations of the lease engine and the line stage: the table, the queue, binding and unbinding, grants, ends, the grant scan, the evaluation of yields, and the closing of an event. -/

namespace Sys2Proof.Machine

/-! ## Records (chapter 1) -/

/-- The lease in slot `i`. -/
def State.leaseAt (s : State) (i : Fin 16) : Option Lease := (s.slot i).lease

/-- The state of a lease (R2). -/
def Lease.state (l : Lease) : LeaseState :=
  match l.phase with
  | .waiting _ => .waiting
  | .active _ => .active
  | .yielding _ _ => .yielding
  | .ended _ _ => .ended

/-- The end cause, present in ENDED (R3). -/
def Lease.cause (l : Lease) : Option Cause :=
  match l.phase with
  | .ended _ c => some c
  | .waiting _ | .active _ | .yielding _ _ => none

/-- What a lease has while it holds lines (R3). -/
def Lease.holding (l : Lease) : Option Holding :=
  match l.phase with
  | .active h => some h
  | .yielding h _ => some h
  | .waiting _ | .ended _ _ => none

/-- The renewal count, present in ACTIVE, YIELDING and ENDED (R3). -/
def Lease.count (l : Lease) : Option Byte :=
  match l.phase with
  | .active h => some h.count
  | .yielding h _ => some h.count
  | .ended n _ => some n
  | .waiting _ => none

/-- The wait deadline, where it is present (R3). -/
def Lease.waitDeadline (l : Lease) : Option Word :=
  match l.phase with
  | .waiting d => d
  | .active _ | .yielding _ _ | .ended _ _ => none

/-- The yield deadline, present in YIELDING (R3). -/
def Lease.yieldDeadline (l : Lease) : Option Word :=
  match l.phase with
  | .yielding _ d => some d
  | .waiting _ | .active _ | .ended _ _ => none

/-- WAITING. -/
def Lease.isWaiting (l : Lease) : Bool :=
  match l.phase with
  | .waiting _ => true
  | .active _ | .yielding _ _ | .ended _ _ => false

/-- ENDED. -/
def Lease.isEnded (l : Lease) : Bool :=
  match l.phase with
  | .ended _ _ => true
  | .waiting _ | .active _ | .yielding _ _ => false

/-- WAITING, ACTIVE or YIELDING: the states the SELF check looks at (R27). -/
def Lease.live (l : Lease) : Bool := !l.isEnded

/-- The renewal cap is absent, or the count is below it (R49, R52). -/
def Lease.belowCap (l : Lease) (count : Byte) : Bool :=
  match l.cap with
  | none => true
  | some c => decide (count.toNat < c.toNat)

/-- Two line sets share at least one line. -/
def intersects (a b : LineSet) : Bool := a &&& b != 0

/-- The line set of the lease in slot `i`, empty for a FREE slot. -/
def State.linesAt (s : State) (i : Fin 16) : LineSet :=
  match s.leaseAt i with
  | some l => l.lines
  | none => 0

/-- The slot is WAITING. -/
def State.waitingAt (s : State) (i : Fin 16) : Bool :=
  match s.leaseAt i with
  | some l => l.isWaiting
  | none => false

/-- The lowest-numbered FREE slot (R5). -/
def State.lowestFree (s : State) : Option (Fin 16) := allSlots.find? fun i => (s.slot i).lease.isNone

/-- The slot use of a port: the number of non-FREE slots that it holds (R17). -/
def State.slotUse (s : State) (p : Port) : Nat := allSlots.countP fun i => (s.slot i).heldBy p

/-- The lease in slot `i` changed by `f`; a FREE slot stays as it is. -/
def State.updLease (s : State) (i : Fin 16) (f : Lease → Lease) : State :=
  s.updSlot i fun x => { x with lease := x.lease.map f }

/-- Ticks from the clock to a deadline, modulo 2^32 (R20). -/
def State.remaining (s : State) (deadline : Word) : Word := deadline - s.clock.count

/-- Ticks remaining as a tick count (R156). -/
def State.ticksLeft (s : State) (deadline : Word) : Ticks := (s.remaining deadline).setWidth 16

/-- The lease clock value `n` ticks ahead, modulo 2^32. -/
def State.ahead (s : State) (n : Ticks) : Word := s.clock.count + n.setWidth 32

/-- A handle names the slot by this number and generation (R8). -/
def State.handleBytes (s : State) (i : Fin 16) : List Byte := [slotByte i, (s.slot i).gen]

/-- The outcome of the handle checks (R9). -/
inductive HandleCheck where
  | refused (st : Status)
  | current (i : Fin 16) (l : Lease)
deriving DecidableEq, Repr

/-- The handle checks of R9, in order: RANGE, STALE and, for a command that a holder sends, NOT_HOLDER.
`holder` is none for REVOKE, which skips the third. -/
def State.checkHandle (s : State) (holder : Option Port) (h : Handle) : HandleCheck :=
  match slotOfByte h.slot with
  | none => .refused .range
  | some i =>
    match s.leaseAt i with
    | none => .refused .stale
    | some l =>
      if (s.slot i).gen ≠ h.gen then .refused .stale
      else
        match holder with
        | none => .current i l
        | some p => if l.holder = p then .current i l else .refused .notHolder

/-! ## The wait queue (section 2.3) -/

/-- The level of the lease in slot `i`. -/
def State.levelAt (s : State) (i : Fin 16) : Nat :=
  match s.leaseAt i with
  | some l => l.level.val
  | none => 0

/-- The queue with slot `i` of level `level` put behind the last waiter of its own or a higher level and
ahead of the first of a lower one (R35). -/
def enqueue (levelOf : Fin 16 → Nat) (i : Fin 16) (level : Nat) : List (Fin 16) → List (Fin 16)
  | [] => [i]
  | j :: q => if level ≤ levelOf j then j :: enqueue levelOf i level q else i :: j :: q

/-- The queue without slot `i` (R36). -/
def State.dequeue (s : State) (i : Fin 16) : State := s.setQueue (s.queue.filter fun j => j ≠ i)

/-- The position of slot `i` in the wait queue, from 1 at the head; 0 when it is not in it (R156). -/
def State.position (s : State) (i : Fin 16) : Nat :=
  if i ∈ s.queue then (s.queue.takeWhile fun j => j ≠ i).length + 1 else 0

/-- No lease ahead of slot `i` in the wait queue intersects it (R37). -/
def State.orderEligible (s : State) (i : Fin 16) : Bool :=
  (s.queue.takeWhile fun j => j ≠ i).all fun j => !intersects (s.linesAt j) (s.linesAt i)

/-- A lease of this line set and level would be order-eligible if it stood in the queue now: no WAITING
lease of the same or a higher level intersects it (R29). -/
def State.wouldBeEligible (s : State) (lines : LineSet) (level : Nat) : Bool :=
  s.queue.all fun j => !(decide (level ≤ s.levelAt j) && intersects (s.linesAt j) lines)

/-! ## Lines: binding and unbinding (section 5.2) -/

/-- The line is FREE. -/
def Line.isFree (x : Line) : Bool :=
  match x.occ with
  | .free => true
  | .bound _ _ | .quarantine _ => false

/-- The slot a line is bound to. -/
def Line.boundSlot (x : Line) : Option (Fin 16) :=
  match x.occ with
  | .bound i _ => some i
  | .free | .quarantine _ => none

/-- Every line of the set is FREE (R29, R39). -/
def State.allFree (s : State) (lines : LineSet) : Bool :=
  allLines.all fun l => !lines.getLsbD l || (s.line l).isFree

/-- Bind (R89): the holder drive is the line's current drive at that moment, with no pattern. -/
def Line.bind (i : Fin 16) (x : Line) : Line := { x with occ := .bound i (.static x.current) }

/-- Unbind to rest, and end of a quarantine (R90, R92): FREE at the rest drive as it now stands. -/
def Line.toRest (x : Line) : Line := { x with occ := .free, current := x.rest }

/-- Unbind involuntarily (R91): to QUARANTINE at the fault drive until the clock has advanced by the
quarantine length, or for a length of 0 straight to FREE at the rest drive. -/
def Line.toFault (clock : Word) (x : Line) : Line :=
  if x.qlen = 0 then x.toRest
  else { x with occ := .quarantine (clock + x.qlen.setWidth 32), current := x.fault }

/-- Every line of the set bound to slot `i` (R89). -/
def State.bindLines (s : State) (i : Fin 16) (lines : LineSet) : State :=
  s.mapLines fun l x => if lines.getLsbD l then x.bind i else x

/-- The lines bound to slot `i`, which are the lines of its lease's set (R87), unbound voluntarily (R90). -/
def State.unbindVoluntary (s : State) (i : Fin 16) : State :=
  s.mapLines fun _ x => if x.boundSlot = some i then x.toRest else x

/-- The lines bound to slot `i` unbound involuntarily (R91). -/
def State.unbindInvoluntary (s : State) (i : Fin 16) : State :=
  s.mapLines fun _ x => if x.boundSlot = some i then x.toFault s.clock.count else x

/-! ## Warning at a grant and a renewal (R55) -/

/-- The warning condition holds as soon as an expiry a full term ahead is set: the margin is not 0 and not
less than the term (R55). -/
def warnsAtOnce (margin term : Ticks) : Bool := margin ≠ 0 ∧ term.toNat ≤ margin.toNat

/-- The warning condition of R54 for a lease in ACTIVE or YIELDING. -/
def State.warningCondition (s : State) (l : Lease) : Bool :=
  match l.holding with
  | some h =>
    decide ((s.port l.holder).margin ≠ 0)
      && decide ((s.remaining h.expiry).toNat ≤ (s.port l.holder).margin.toNat) && !h.warned
  | none => false

/-- WARNING posted and warned this term set, in ACTIVE or YIELDING (R54). -/
def Lease.warn (l : Lease) : Lease :=
  match l.phase with
  | .active h => { l with phase := .active { h with warned := true }, flags := { l.flags with warning := true } }
  | .yielding h d =>
    { l with phase := .yielding { h with warned := true } d, flags := { l.flags with warning := true } }
  | .waiting _ | .ended _ _ => l

/-! ## The transitions of a record (R12 to R15) -/

/-- A grant (R14), at the clock and under the holder port's margin: ACTIVE with a full term ahead, no
renewal, the given notices, and WARNING where R55 posts it at once. -/
def Lease.grant (clock : Word) (margin : Ticks) (notices : Notices) (l : Lease) : Lease :=
  let warned := warnsAtOnce margin l.term
  { l with
    phase := .active { expiry := clock + l.term.setWidth 32, count := 0, warned := warned }
    flags := { notices with warning := warned } }

/-- One renewal of the lease's count (R53): it rises to 255 and stays there. -/
def renewedCount (n : Byte) : Byte := if n = 255 then 255 else n + 1

/-- A renewal of an ACTIVE lease, steps 2 to 5 of R50; any other lease is left as it is. -/
def Lease.renew (clock : Word) (margin : Ticks) (l : Lease) : Lease :=
  match l.phase with
  | .active h =>
    let warned := warnsAtOnce margin l.term
    { l with
      phase := .active
        { expiry := clock + l.term.setWidth 32, count := renewedCount h.count, warned := warned }
      flags := { l.flags with warning := warned } }
  | .waiting _ | .yielding _ _ | .ended _ _ => l

/-- Entry into ENDED (R13): the cause is set, the deadlines and warned this term become absent, a lease
that was never granted gets the count 0, and ENDED is the one flag pending. An ENDED lease stays. -/
def Lease.finish (cause : Cause) (l : Lease) : Lease :=
  match l.phase with
  | .waiting _ => { l with phase := .ended 0 cause, flags := Notices.endedOnly }
  | .active h => { l with phase := .ended h.count cause, flags := Notices.endedOnly }
  | .yielding h _ => { l with phase := .ended h.count cause, flags := Notices.endedOnly }
  | .ended _ _ => l

/-- The start of a yield (R15, R69): the deadline becomes present, YIELD is posted, WITHDRAWN cleared. -/
def Lease.startYield (deadline : Word) (l : Lease) : Lease :=
  match l.phase with
  | .active h =>
    { l with phase := .yielding h deadline, flags := { l.flags with yield := true, withdrawn := false } }
  | .waiting _ | .yielding _ _ | .ended _ _ => l

/-- A withdrawal (R15, R72): the deadline becomes absent, YIELD is cleared, WITHDRAWN posted. -/
def Lease.withdraw (l : Lease) : Lease :=
  match l.phase with
  | .yielding h _ =>
    { l with phase := .active h, flags := { l.flags with yield := false, withdrawn := true } }
  | .waiting _ | .active _ | .ended _ _ => l

/-- A slot returned to FREE (R7, R12): its generation advances and its lease is gone. A FREE slot stays. -/
def Slot.toFree (x : Slot) : Slot :=
  match x.lease with
  | some _ => { gen := x.gen + 1, lease := none }
  | none => x

/-- The lease of slot `i` returned to FREE voluntarily: RELEASE, CANCEL, or the ACK of an ENDED lease,
which holds no line and stands in no queue (R12). -/
def State.freeSlot (s : State) (i : Fin 16) : State :=
  ((s.unbindVoluntary i).dequeue i).updSlot i Slot.toFree

/-- The lease of slot `i` ended (R13): a waiter leaves the queue, a holder's lines are unbound
involuntarily. -/
def State.endLease (s : State) (i : Fin 16) (cause : Cause) : State :=
  ((s.unbindInvoluntary i).dequeue i).updLease i (Lease.finish cause)

/-! ## The grant scan (section 2.4) -/

/-- The waiter in slot `i` granted by a scan (R40). -/
def State.grantWaiter (s : State) (i : Fin 16) (l : Lease) : State :=
  ((s.dequeue i).bindLines i l.lines).updLease i
    (Lease.grant s.clock.count (s.port l.holder).margin Notices.grantedOnly)

/-- One step of the walk (R39): the waiter is granted when it is order-eligible against the queue as it
then stands and every line of its set is FREE. -/
def State.scanStep (s : State) (i : Fin 16) : State :=
  match s.leaseAt i with
  | some l =>
    if l.isWaiting && s.orderEligible i && s.allFree l.lines then s.grantWaiter i l else s
  | none => s

/-- The grant scan: one walk of the wait queue, from the head to the tail (R39). -/
def State.grantScan (s : State) : State := s.queue.foldl State.scanStep s

/-! ## The evaluation of yields (sections 4.1 and 4.2) -/

/-- Some line of waiter `w`'s set is bound to slot `j`: `j` is a blocker of `w` (R67). -/
def State.blocks (s : State) (j w : Fin 16) : Bool :=
  allLines.any fun l => (s.linesAt w).getLsbD l && (s.line l).boundSlot == some j

/-- The lease in slot `j` is yieldable and of a level below `level` (R67). -/
def State.yieldsTo (s : State) (j : Fin 16) (level : Nat) : Bool :=
  match s.leaseAt j with
  | some l => l.yieldable && decide (l.level.val < level)
  | none => false

/-- A justifying waiter (R67): order-eligible, with at least one blocker, and every blocker yieldable and
of a level below its own. -/
def State.justifying (s : State) (w : Fin 16) : Bool :=
  s.waitingAt w && s.orderEligible w && (allSlots.any fun j => s.blocks j w)
    && allSlots.all fun j => !s.blocks j w || s.yieldsTo j (s.levelAt w)

/-- Some justifying waiter calls on slot `j` (R67). -/
def State.calledOn (s : State) (j : Fin 16) : Bool :=
  s.queue.any fun w => s.justifying w && s.blocks j w

/-- The lease in slot `j` is ACTIVE. -/
def State.activeAt (s : State) (j : Fin 16) : Bool :=
  match s.leaseAt j with
  | some l => l.state == .active
  | none => false

/-- The lease in slot `j` is YIELDING. -/
def State.yieldingAt (s : State) (j : Fin 16) : Bool :=
  match s.leaseAt j with
  | some l => l.state == .yielding
  | none => false

/-- The ACTIVE leases that step 2 of an evaluation starts a yield on (R68, R69). -/
def State.startingYields (s : State) : List (Fin 16) :=
  allSlots.filter fun j => s.activeAt j && s.calledOn j

/-- The yields that step 2 of an evaluation starts (R68, R69): each ACTIVE lease called on enters YIELDING, with
its deadline from its own holder port's window (R70). A YIELDING lease called on keeps its deadline (R74). -/
def State.startYields (s : State) : State :=
  s.mapSlots fun j x =>
    { x with lease := x.lease.map fun l =>
        if s.calledOn j then l.startYield (s.ahead (s.port l.holder).window) else l }

/-- The withdrawals of step 2 (R68, R72): each YIELDING lease that no justifying waiter calls on is ACTIVE
again. -/
def State.withdrawYields (s : State) : State :=
  s.mapSlots fun j x => { x with lease := x.lease.map fun l => if s.calledOn j then l else l.withdraw }

/-- The holder port of the lease in slot `j` has a yield window of 0 (R76). -/
def State.zeroWindow (s : State) (j : Fin 16) : Bool :=
  match s.leaseAt j with
  | some l => (s.port l.holder).window == 0
  | none => false

/-- Step 3 of an evaluation (R68, R76): the leases that end at once. -/
def State.preemptAll (s : State) (js : List (Fin 16)) : State :=
  js.foldl (fun s j => s.endLease j .preempted) s

/-- Evaluations of yields, each that ends a lease followed by a further grant scan and a further
evaluation, until one ends nothing (R41). The second result lists the slots that entered YIELDING.
Withdrawals are made by the last evaluation, which ends nothing, so that no lease is withdrawn in an event that
leaves a justifying waiter calling on it, and a lease called on before and after the event keeps its deadline
(R72, R74, log entry 29). Binding decides who is called on, and neither a start nor a withdrawal changes it.
Every round but the last ends an ACTIVE lease, so `Config.settleRounds` rounds are enough. -/
def State.evaluate : Nat → State → State × List (Fin 16)
  | 0, s => (s, [])
  | n + 1, s =>
    let starting := s.startingYields
    let started := s.startYields
    match starting.filter s.zeroWindow with
    | [] => (started.withdrawYields, starting)
    | ended =>
      let further := State.evaluate n (started.preemptAll ended).grantScan
      (further.1, starting ++ further.2)

/-- What the engine makes after an event's own changes: the grant scan, where the event calls for one
(R38), and the evaluation of yields (R68). -/
def State.settle (scan : Bool) (s : State) : State × List (Fin 16) :=
  State.evaluate Config.settleRounds (if scan then s.grantScan else s)

/-- An event of the engine that is no request (R155): its changes settled, then the attention units. -/
def State.engineEvent (before : State) (scan : Bool) (after : State) : State :=
  before.attend none (after.settle scan).1

/-! ## Taking a request (sections 9.4 and 9.5) -/

/-- The ports in cyclic order from the one after `p` (R154). -/
def portsAfter : Port → List Port
  | .A => [.B, .C, .D, .A]
  | .B => [.C, .D, .A, .B]
  | .C => [.D, .A, .B, .C]
  | .D => [.A, .B, .C, .D]

/-- The request that a buffer holds. -/
def Buffer.request : Buffer → Option Request
  | .pending r => some r
  | .empty | .ready _ => none

/-- The request that the round robin takes next, with its port (R154); none while no buffer is PENDING
or the part is held in reset (R22). -/
def State.nextRequest (s : State) : Option (Port × Request) :=
  if s.inReset then none
  else (portsAfter s.pointer).findSome? fun p => (s.port p).buffer.request.map fun r => (p, r)

/-- The engine's answer to a request: status and data. -/
structure Answer where
  status : Status
  data   : List Byte := []
deriving DecidableEq, Repr

/-- The response frame of an answer, closed by its CRC (R148, R149). -/
def Response.make (echo : Byte) (a : Answer) : Response :=
  { echo := echo, status := a.status, data := a.data
    crc := crcOf (echo :: a.status.toByte :: BitVec.ofNat 8 a.data.length :: a.data) }

/-- The engine places its answer: the buffer becomes READY, and the pointer names the port (R152, R154). -/
def State.respond (s : State) (p : Port) (c : Command) (a : Answer) : State :=
  (s.updPort p fun x => { x with buffer := .ready (Response.make c.code a) }).setPointer p

/-- A request of port `p` taken as one event (R152): its changes `after`, the scan where it calls for one,
the evaluation of yields, the attention units, and the answer, which reports the whole event. -/
def State.conclude (before : State) (p : Port) (c : Command) (scan : Bool) (after : State)
    (answer : State → Answer) : State :=
  let settled := (after.settle scan).1
  (before.attend none settled).respond p c (answer settled)

/-- A request that the engine refuses, or answers without changing anything: the evaluation of its event
is made on the state as it stood (R24, R68). -/
def State.refuse (s : State) (p : Port) (c : Command) (a : Answer) : State :=
  s.conclude p c false s fun _ => a

/-- The STATE answer of RENEW, RELEASE, CANCEL, DRIVE and REVOKE (R158): lease state and end cause. -/
def stateAnswer (l : Lease) : Answer :=
  { status := .state, data := [l.state.toByte, causeByte l.cause] }

/-! ## Detach (section 10.5) -/

/-- The slots of port `p` returned to FREE, their waiters gone from the queue, their lines unbound
involuntarily (R170). -/
def State.dropLeases (s : State) (p : Port) : State :=
  ((s.mapLines fun _ x =>
      match x.boundSlot with
      | some i => if (s.slot i).heldBy p then x.toFault s.clock.count else x
      | none => x).setQueue
    (s.queue.filter fun i => !(s.slot i).heldBy p)).mapSlots
      fun _ x => if x.heldBy p then x.toFree else x

/-- A transaction in progress is ignored from now on (R145). -/
def Transaction.ignore : Transaction → Transaction
  | .idle => .idle
  | .ignored | .shifting _ => .ignored

/-- The port's own part of a detach (R171). -/
def PortState.silence (x : PortState) : PortState :=
  { x with buffer := .empty, transaction := x.transaction.ignore, clockFlag := false, gap := none }

/-- The detach of port `p` (R170, R171), less the scan and evaluation that follow it. -/
def State.detachPort (s : State) (p : Port) : State := (s.dropLeases p).updPort p PortState.silence

end Sys2Proof.Machine
end

