-- ==== Sys2Proof/Machine/Acquisition.lean ====
section
/-! DEFINITION. ACQUIRE, CANCEL and the wait deadline (chapter 2). -/

namespace Sys2Proof.Machine

/-- The slot of the lowest-numbered live lease of port `p` that intersects a line set (R27). An ENDED lease does not
stand in the way, acknowledged or not, as R16, R27 and 11.3 say; R51 says in passing that a port can acquire the
lines of a capped lease again only after its expiry "and its ACK" (log entry 32, DEDUCED). -/
def State.selfConflict (s : State) (p : Port) (lines : LineSet) : Option (Fin 16) :=
  allSlots.find? fun i =>
    match s.leaseAt i with
    | some l => l.holder == p && l.live && intersects l.lines lines
    | none => false

/-- Every line of the set has an access set that holds the port (R26, R95). -/
def State.openTo (s : State) (p : Port) (lines : LineSet) : Bool :=
  allLines.all fun l => !lines.getLsbD l || (s.line l).access.getLsbD (portBit p)

/-- The six checks of R24 in order: the answer of the first that fails, or the level and the slot of the
placement. -/
def State.checkAcquire (s : State) (p : Port) (a : AcquireArgs) : Except Answer (Fin 4 × Fin 16) :=
  if a.outOfRange then .error { status := .range }
  else
    match a.claimLevel with
    | none => .error { status := .range }
    | some level =>
      if (s.port p).ceiling < level then .error { status := .level }
      else if !s.openTo p a.lines then .error { status := .denied }
      else
        match s.selfConflict p a.lines with
        | some i => .error { status := .self, data := s.handleBytes i }
        | none =>
          if (s.port p).quota ≤ s.slotUse p then
            .error { status := .quota
                     data := [BitVec.ofNat 8 (s.port p).quota, BitVec.ofNat 8 (s.slotUse p)] }
          else
            match s.lowestFree with
            | none => .error { status := .full }
            | some i => .ok (level, i)

/-- The record that an ACQUIRE creates, WAITING with the wait deadline of its wait limit (R6, R32). -/
def State.newLease (s : State) (p : Port) (a : AcquireArgs) (level : Fin 4) : Lease :=
  { holder := p, tag := a.tag, lines := a.lines, level := level, yieldable := a.yieldable, term := a.term,
    waitLimit := a.limit, source := a.renewalSource, cap := a.renewalCap, flags := {},
    phase := .waiting (a.limit.map fun w => s.ahead w) }

/-- The placement grants at once: slot `i` goes from FREE to ACTIVE and binds its lines, with no GRANTED
posted (R30). -/
def State.grantNow (s : State) (i : Fin 16) (l : Lease) : State :=
  (s.bindLines i l.lines).updSlot i fun x =>
    { x with lease := some (l.grant s.clock.count (s.port l.holder).margin {}) }

/-- The placement queues: slot `i` goes from FREE to WAITING and enters the queue at its level (R32, R35). -/
def State.placeWaiting (s : State) (i : Fin 16) (l : Lease) : State :=
  (s.setQueue (enqueue s.levelAt i l.level.val s.queue)).updSlot i fun x => { x with lease := some l }

/-- Some slot that entered YIELDING within the event is a blocker of the lease with this line set (R33). -/
def State.startedFor (s : State) (entered : List (Fin 16)) (lines : LineSet) : Bool :=
  entered.any fun j => intersects (s.linesAt j) lines

/-- The data of an ACQUIRE answered OK or QUEUED, in the state that the event leaves (R33, R158). -/
def State.placedData (s : State) (i : Fin 16) (entered : List (Fin 16)) : List Byte :=
  match s.leaseAt i with
  | none => []
  | some l =>
    s.handleBytes i ++ [l.state.toByte]
      ++ bytes16 (match l.phase with
          | .active h => s.ticksLeft h.expiry
          | .waiting _ | .yielding _ _ | .ended _ _ => 0)
      ++ [BitVec.ofNat 8 (if l.isWaiting then s.position i else 0), yesNo (s.startedFor entered l.lines)]

/-- An ACQUIRE placed in slot `i`: the event settled, and its answer OK or QUEUED (R30, R32, R33). -/
def State.place (before : State) (p : Port) (i : Fin 16) (st : Status) (scan : Bool) (after : State) : State :=
  let settled := after.settle scan
  (before.attend none settled.1).respond p .acquire
    { status := st, data := settled.1.placedData i settled.2 }

/-- The engine takes an ACQUIRE of port `p` (R24, R29 to R32). -/
def State.takeAcquire (s : State) (p : Port) (a : AcquireArgs) : State :=
  match s.checkAcquire p a with
  | .error answer => s.refuse p .acquire answer
  | .ok (level, i) =>
    let lease := s.newLease p a level
    let ordered := s.wouldBeEligible a.lines level.val
    let free := s.allFree a.lines
    if ordered && free then s.place p i .ok false (s.grantNow i lease)
    else if a.isTry then
      s.refuse p .acquire { status := .conflict, data := [bitAt 0 (!ordered) ||| bitAt 1 (!free)] }
    else s.place p i .queued true (s.placeWaiting i lease)

/-- ACQUIRE (R24). When the request that the round robin takes next is no ACQUIRE, the event does not arise
(log entry 7). -/
def execAcquire (s : State) : Host.Outcome State Fault Refusal :=
  match s.nextRequest with
  | some (p, .acquire a) => .next (s.takeAcquire p a)
  | _ => .next s

/-- The engine takes a CANCEL of port `p` (R44). -/
def State.takeCancel (s : State) (p : Port) (h : Handle) : State :=
  match s.checkHandle (some p) h with
  | .refused st => s.refuse p .cancel { status := st }
  | .current i l =>
    if l.isWaiting then s.conclude p .cancel true (s.freeSlot i) fun _ => { status := .ok }
    else s.refuse p .cancel (stateAnswer l)

/-- CANCEL (R44). -/
def execCancel (s : State) : Host.Outcome State Fault Refusal :=
  match s.nextRequest with
  | some (p, .cancel h) => .next (s.takeCancel p h)
  | _ => .next s

/-- The wait deadline event of slot `i` is open: the slot is WAITING and the clock stands at its wait
deadline (R42). -/
def State.waitDue (s : State) (i : Fin 16) : Bool :=
  match s.leaseAt i with
  | some l => l.waitDeadline == some s.clock.count
  | none => false

/-- WAIT_DEADLINE: the waiter ends WAIT_EXPIRED and leaves the queue (R42). When the clock does not stand at
its deadline the event does not arise (log entry 7). One that arose before a
freeze is taken during it (log entry 36, DEDUCED). -/
def execWaitDeadline (slot : Nat) (s : State) : Host.Outcome State Fault Refusal :=
  if h : slot < 16 then
    if !s.inReset && s.waitDue ⟨slot, h⟩ then
      .next (s.engineEvent true (s.endLease ⟨slot, h⟩ .waitExpired))
    else .next s
  else .next s

end Sys2Proof.Machine
end

