-- ==== Sys2Proof/Machine/Attention.lean ====
section
/-! DEFINITION. ACK, MASK and the end of a gap (chapter 8). -/

namespace Sys2Proof.Machine

/-- The first check of an ACK fails on its kind byte alone (R136): no kind is named, or a bit names no kind. -/
def badKinds (kinds : Byte) : Bool := kinds == 0 || kinds.getLsbD 6 || kinds.getLsbD 7

/-- The kinds cleared from the pending flags of slot `i` (R137). -/
def State.clearFlags (s : State) (i : Fin 16) (kinds : Notices) : State :=
  s.updLease i fun l => { l with flags := l.flags.minus kinds }

/-- The data of an ACK with a handle target: the lease state and the flags left pending, or FREE and none
(R137, R158). -/
def State.ackData (s : State) (i : Fin 16) : List Byte :=
  match s.leaseAt i with
  | none => [LeaseState.free.toByte, 0]
  | some l => [l.state.toByte, l.flags.toByte]

/-- An accepted ACK of port `p`: as `State.conclude` without a scan, and it may start a gap (R142). -/
def State.concludeAck (before : State) (p : Port) (after : State) (answer : State → Answer) : State :=
  let settled := (after.settle false).1
  (before.attend (some p) settled).respond p .ack (answer settled)

/-- The engine takes an ACK of port `p` (R136 to R138). -/
def State.takeAck (s : State) (p : Port) (target gen kinds : Byte) : State :=
  if badKinds kinds then s.refuse p .ack { status := .range }
  else if target = 0xFF then
    if kinds ≠ 0x20 then s.refuse p .ack { status := .range }
    else
      s.concludeAck p (s.updPort p fun x => { x with clockFlag := false }) fun t =>
        { status := .ok, data := [t.clock.state.toByte] }
  else if kinds.getLsbD 5 then s.refuse p .ack { status := .range }
  else
    match s.checkHandle (some p) { slot := target, gen := gen } with
    | .refused st => s.refuse p .ack { status := st }
    | .current i l =>
      let named := noticesOfByte kinds
      s.concludeAck p (if named.ended && l.isEnded then s.freeSlot i else s.clearFlags i named) fun t =>
        { status := .ok, data := t.ackData i }

/-- ACK (R136). -/
def execAck (s : State) : Host.Outcome State Fault Refusal :=
  match s.nextRequest with
  | some (p, .ack target gen kinds) => .next (s.takeAck p target gen kinds)
  | _ => .next s

/-- The mask as a notice-kind byte (R158). -/
def PortState.maskByte (x : PortState) : Byte := x.mask.toByte ||| bitAt 5 x.maskClock

/-- A port with the mask and mode of a MASK; a change to LEVEL ends a running gap at once (R140). -/
def PortState.setMask (kinds : Byte) (mode : AttnMode) (x : PortState) : PortState :=
  { x with
    mask := noticesOfByte kinds
    maskClock := kinds.getLsbD 5
    mode := mode
    gap := match mode with
      | .level => none
      | .gap => x.gap }

/-- The engine takes a MASK of port `p` (R140). -/
def State.takeMask (s : State) (p : Port) (kinds mode : Byte) : State :=
  match attnModeOfByte mode with
  | none => s.refuse p .mask { status := .range }
  | some m =>
    if kinds.getLsbD 6 || kinds.getLsbD 7 then s.refuse p .mask { status := .range }
    else
      s.conclude p .mask false (s.updPort p (PortState.setMask kinds m)) fun t =>
        { status := .ok, data := [(t.port p).maskByte, (t.port p).mode.toByte] }

/-- MASK (R140). -/
def execMask (s : State) : Host.Outcome State Fault Refusal :=
  match s.nextRequest with
  | some (p, .mask kinds mode) => .next (s.takeMask p kinds mode)
  | _ => .next s

/-- GAP_END: the gap ends and ATTN_x is computed again (R143). With no gap running the event does not arise
(log entry 7). -/
def execGapEnd (x : Port) (s : State) : Host.Outcome State Fault Refusal :=
  if s.inReset || (s.port x).gap.isNone then .next s
  else .next (s.attend none (s.updPort x fun q => { q with gap := none }))

end Sys2Proof.Machine
end

