-- ==== Sys2Proof/Machine/Lines.lean ====
section
/-! DEFINITION. DRIVE, SET_LINE, LINES, pulse patterns and the quarantine deadline (chapter 5). -/

namespace Sys2Proof.Machine

/-! ## Pulse patterns (R98) -/

/-- The level of a pattern when it is at its active level, or at its inactive one. -/
def Pulse.drive (p : Pulse) (active : Bool) : Drive := if active = p.activeHigh then .high else .low

/-- The pattern is at its active level at count `k` (R98): from the delay onward, while the place in the
cycle is below the on-time. -/
def Pulse.activeAt (p : Pulse) (k : Nat) : Bool :=
  decide (p.delay.toNat ≤ k) && decide ((k - p.delay.toNat) % p.period.toNat < p.onTime.toNat)

/-- The level that a pattern gives its line: the inactive level before the origin. -/
def Pulse.level (p : Pulse) : Drive :=
  match p.k with
  | none => p.drive false
  | some k => p.drive (p.activeAt k)

/-- A tick advances the count `k`: the first one is the origin, `k = 0` (R98). -/
def Pulse.advance (p : Pulse) : Pulse :=
  { p with k := match p.k with
      | none => some 0
      | some k => some (k + 1) }

/-- The line after a tick: a running pattern advances and sets the line's level (R98). -/
def Line.tick (x : Line) : Line :=
  match x.occ with
  | .bound i (.pulse p) => { x with occ := .bound i (.pulse p.advance), current := p.advance.level }
  | .bound _ (.static _) | .free | .quarantine _ => x

/-! ## DRIVE (R96 to R99) -/

/-- The holder drive that the kind and timing bytes of a DRIVE order at this clock value; none when they are
out of range (R96, check 1). The timing of a static kind is neither checked nor kept. -/
def orderedDrive (clock : Word) (kind delay onTime period : Byte) : Option HolderDrive :=
  match driveOfByte kind with
  | some d => some (.static d)
  | none =>
    if (kind = 3 ∨ kind = 4) ∧ onTime ≠ 0 ∧ 2 ≤ period.toNat ∧ onTime.toNat < period.toNat then
      some (.pulse
        { activeHigh := kind = 3, delay := delay, onTime := onTime, period := period, origin := clock + 1,
          k := none })
    else none

/-- The level that a holder drive gives its line (R88). -/
def HolderDrive.level : HolderDrive → Drive
  | .static d => d
  | .pulse p => p.level

/-- A bound line given a new holder drive, with its level at once (R97, R98). -/
def Line.order (d : HolderDrive) (x : Line) : Line :=
  match x.occ with
  | .bound i _ => { x with occ := .bound i d, current := d.level }
  | .free | .quarantine _ => x

/-- The named lines of slot `i` given a new holder drive, together (R97, R99). -/
def State.orderLines (s : State) (i : Fin 16) (lines : LineSet) (d : HolderDrive) : State :=
  s.mapLines fun l x => if lines.getLsbD l ∧ x.boundSlot = some i then x.order d else x

/-- The engine takes a DRIVE of port `p` (R96). -/
def State.takeDrive (s : State) (p : Port) (h : Handle) (lines : LineSet)
    (kind delay onTime period : Byte) : State :=
  match orderedDrive s.clock.count kind delay onTime period with
  | none => s.refuse p .drive { status := .range }
  | some d =>
    if lines = 0 then s.refuse p .drive { status := .range }
    else
      match s.checkHandle (some p) h with
      | .refused st => s.refuse p .drive { status := st }
      | .current i l =>
        match l.holding with
        | none => s.refuse p .drive (stateAnswer l)
        | some _ =>
          if lines &&& ~~~l.lines ≠ 0 then
            s.refuse p .drive { status := .range, data := bytes16 (lines &&& ~~~l.lines) }
          else
            s.conclude p .drive false (s.orderLines i lines d) fun t =>
              { status := .ok, data := t.handleBytes i ++ bytes32 t.clock.count }

/-- DRIVE (R96). -/
def execDrive (s : State) : Host.Outcome State Fault Refusal :=
  match s.nextRequest with
  | some (p, .drive h lines kind delay onTime period) =>
    .next (s.takeDrive p h lines kind delay onTime period)
  | _ => .next s

/-! ## SET_LINE (R102, R103) -/

/-- The line with its settings changed: a FREE line's pin takes a new rest drive at once, and a line in
QUARANTINE a new fault drive (R103). -/
def Line.configure (rest fault : Setting Drive) (qlen : Setting Byte) (access : Setting PortSet)
    (x : Line) : Line :=
  let y := { x with
    rest := rest.over x.rest, fault := fault.over x.fault, qlen := qlen.over x.qlen,
    access := access.over x.access }
  match y.occ with
  | .free => { y with current := y.rest }
  | .quarantine _ => { y with current := y.fault }
  | .bound _ _ => y

/-- The engine takes a SET_LINE (R102). -/
def State.takeSetLine (s : State) (p : Port) (lines : LineSet) (keep rest fault qlen access : Byte) : State :=
  let rest' := Setting.read (keep.getLsbD 0) (driveOfByte rest)
  let fault' := Setting.read (keep.getLsbD 1) (driveOfByte fault)
  let qlen' := Setting.read (keep.getLsbD 2) (some qlen)
  let access' := Setting.read (keep.getLsbD 3) (some (access.setWidth 4))
  if lines == 0 || rest'.bad || fault'.bad then s.refuse p .setLine { status := .range }
  else
    s.conclude p .setLine false
      (s.mapLines fun l x => if lines.getLsbD l then x.configure rest' fault' qlen' access' else x)
      fun _ => { status := .ok }

/-- SET_LINE (R102). -/
def execSetLine (s : State) : Host.Outcome State Fault Refusal :=
  match s.nextRequest with
  | some (p, .setLine lines keep rest fault qlen access) =>
    .next (s.takeSetLine p lines keep rest fault qlen access)
  | _ => .next s

/-! ## LINES (R105) -/

/-- The holder port of the lease that a line is bound to, or A where there is none. -/
def State.holderOfLine (s : State) (x : Line) : Port :=
  match x.boundSlot with
  | some i =>
    match s.leaseAt i with
    | some l => l.holder
    | none => .A
  | none => .A

/-- One entry of the LINES answer: five bytes (R158). -/
def State.lineEntry (s : State) (l : Fin 16) : List Byte :=
  let x := s.line l
  let occupancy : Byte :=
    match x.occ with
    | .free => 0
    | .bound _ d => 1 ||| (portByte (s.holderOfLine x) <<< 2) ||| (d.kindByte <<< 4)
    | .quarantine _ => 2
  let left : Byte :=
    match x.occ with
    | .quarantine d => (s.remaining d).setWidth 8
    | .free | .bound _ _ => 0
  [occupancy, x.current.toByte ||| (x.rest.toByte <<< 2) ||| (x.fault.toByte <<< 4),
    x.access.setWidth 8, left, x.qlen]

/-- LINES (R105): sixteen entries, L0 first. -/
def execLines (s : State) : Host.Outcome State Fault Refusal :=
  match s.nextRequest with
  | some (p, .lines) =>
    .next (s.conclude p .lines false s fun t => { status := .ok, data := allLines.flatMap t.lineEntry })
  | _ => .next s

/-! ## The quarantine deadline (R92) -/

/-- The quarantine deadline event of line `l` is open: QUARANTINE with the clock at its deadline (R92). -/
def State.quarantineDue (s : State) (l : Fin 16) : Bool :=
  match (s.line l).occ with
  | .quarantine d => d == s.clock.count
  | .free | .bound _ _ => false

/-- QUARANTINE_DEADLINE: the line goes to FREE at its rest drive, and a grant scan follows (R92). When the
clock does not stand at its deadline the event does not arise (log entry 7). One that arose at the last tick before
a freeze is taken during it, where R93 has every line in QUARANTINE stay there for as long as the freeze lasts
(log entry 36, DEDUCED). -/
def execQuarantineDeadline (line : Nat) (s : State) : Host.Outcome State Fault Refusal :=
  if h : line < 16 then
    if !s.inReset && s.quarantineDue ⟨line, h⟩ then
      .next (s.engineEvent true (s.mapLines fun l x => if l = ⟨line, h⟩ then x.toRest else x))
    else .next s
  else .next s

end Sys2Proof.Machine
end

