-- ==== Sys2Proof/Machine/Terms.lean ====
section
/-! DEFINITION. RENEW, RELEASE, REVOKE, renewal claims, and the expiry, warning and yield deadline events (chapters 3 and 4). -/

namespace Sys2Proof.Machine

/-! ## RENEW (R49 to R51) -/

/-- The new term of a RENEW is 0, or a term (R49). -/
def newTermInRange (t : Ticks) : Bool := t = 0 ∨ Config.minTerm ≤ t.toNat

/-- The term in force after a RENEW (R50, step 1). -/
def termAfter (l : Lease) (newTerm : Ticks) : Ticks := if newTerm = 0 then l.term else newTerm

/-- Renewals left before the cap; FFh when there is no cap (R158). -/
def renewalsLeft (cap : Option Byte) (count : Byte) : Byte :=
  match cap with
  | none => 0xFF
  | some c => c - count

/-- The data of a RENEW answered OK, for the lease as the event leaves it (R50, R158). WARNING was posted by
the event when the condition held against the new expiry. -/
def State.renewedData (s : State) (i : Fin 16) : List Byte :=
  match s.leaseAt i with
  | some l =>
    match l.holding with
    | some h =>
      s.handleBytes i ++ bytes16 (s.ticksLeft h.expiry) ++ bytes16 l.term
        ++ [h.count, renewalsLeft l.cap h.count, yesNo h.warned]
    | none => []
  | none => []

/-- The engine takes a RENEW of port `p` (R49 to R51). -/
def State.takeRenew (s : State) (p : Port) (h : Handle) (newTerm : Ticks) : State :=
  if !newTermInRange newTerm then s.refuse p .renew { status := .range }
  else
    match s.checkHandle (some p) h with
    | .refused st => s.refuse p .renew { status := st }
    | .current i l =>
      match l.phase with
      | .waiting _ => s.refuse p .renew (stateAnswer l)
      | .ended _ _ => s.refuse p .renew (stateAnswer l)
      | .yielding g d =>
        s.refuse p .renew
          { status := .yielding, data := bytes16 (s.ticksLeft g.expiry) ++ bytes16 (s.ticksLeft d) }
      | .active g =>
        if l.belowCap g.count then
          s.conclude p .renew false
            (s.updLease i fun l =>
              { l with term := termAfter l newTerm }.renew s.clock.count (s.port p).margin)
            fun t => { status := .ok, data := t.renewedData i }
        else s.refuse p .renew { status := .limit, data := g.count :: bytes16 (s.ticksLeft g.expiry) }

/-- RENEW (R50). -/
def execRenew (s : State) : Host.Outcome State Fault Refusal :=
  match s.nextRequest with
  | some (p, .renew h t) => .next (s.takeRenew p h t)
  | _ => .next s

/-! ## Renewal claims (R52, R110) -/

/-- The effect of a claim on one lease: ACTIVE, naming the input, and below its cap, it is renewed with its
own term; any other lease is passed over (R52). -/
def Lease.claimed (clock : Word) (margin : Ticks) (n : Fin 4) (l : Lease) : Lease :=
  match l.phase with
  | .active h => if l.source = some n && l.belowCap h.count then l.renew clock margin else l
  | .waiting _ | .yielding _ _ | .ended _ _ => l

/-- Every lease that a claim of input `n` renews, renewed from one clock value (R52, R110). -/
def State.claimAll (s : State) (n : Fin 4) : State :=
  s.mapSlots fun _ x =>
    { x with lease := x.lease.map fun l => l.claimed s.clock.count (s.port l.holder).margin n }

/-- RENEWAL_CLAIM: the engine takes one claim that the input sent (R110). With none waiting the event does
not arise (log entry 7). A claim sent before a freeze and not yet taken is taken while the clock is frozen as at any
other time: R125 says that the engine still takes claims, and R112 that no lease is renewed from a heartbeat during
a freeze, since none is sent (log entry 34, DEDUCED). -/
def execRenewalClaim (input : Nat) (s : State) : Host.Outcome State Fault Refusal :=
  if h : input < 4 then
    if !s.inReset && decide (0 < (s.input ⟨input, h⟩).claims) then
      .next (s.engineEvent false
        ((s.claimAll ⟨input, h⟩).mapInputs fun n x =>
          if n = ⟨input, h⟩ then { x with claims := x.claims - 1 } else x))
    else .next s
  else .next s

/-! ## RELEASE (R58) -/

/-- The engine takes a RELEASE of port `p` (R58). -/
def State.takeRelease (s : State) (p : Port) (h : Handle) : State :=
  match s.checkHandle (some p) h with
  | .refused st => s.refuse p .release { status := st }
  | .current i l =>
    match l.phase with
    | .waiting _ => s.refuse p .release (stateAnswer l)
    | .ended _ _ => s.refuse p .release (stateAnswer l)
    | .active _ => s.conclude p .release true (s.freeSlot i) fun _ => { status := .ok }
    | .yielding _ _ => s.conclude p .release true (s.freeSlot i) fun _ => { status := .ok }

/-- RELEASE (R58). -/
def execRelease (s : State) : Host.Outcome State Fault Refusal :=
  match s.nextRequest with
  | some (p, .release h) => .next (s.takeRelease p h)
  | _ => .next s

/-! ## REVOKE (R61, R62, R166) -/

/-- The engine takes a REVOKE of port `p`: any port's lease but an ENDED one ends REVOKED (R61, R62). The
data give the holder port and the state before. -/
def State.takeRevoke (s : State) (p : Port) (h : Handle) : State :=
  match s.checkHandle none h with
  | .refused st => s.refuse p .revoke { status := st }
  | .current i l =>
    if l.isEnded then s.refuse p .revoke (stateAnswer l)
    else
      s.conclude p .revoke true (s.endLease i .revoked) fun _ =>
        { status := .ok, data := [portByte l.holder, l.state.toByte] }

/-- REVOKE (R61). -/
def execRevoke (s : State) : Host.Outcome State Fault Refusal :=
  match s.nextRequest with
  | some (p, .revoke h) => .next (s.takeRevoke p h)
  | _ => .next s

/-! ## Deadline and warning events of a holding lease (R54, R59, R75) -/

/-- The expiry event of slot `i` is open: ACTIVE or YIELDING with the clock at its expiry (R59). -/
def State.expiryDue (s : State) (i : Fin 16) : Bool :=
  match s.leaseAt i with
  | some l =>
    match l.holding with
    | some h => h.expiry == s.clock.count
    | none => false
  | none => false

/-- The yield deadline event of slot `i` is open: YIELDING with the clock at its yield deadline (R75). -/
def State.yieldDue (s : State) (i : Fin 16) : Bool :=
  match s.leaseAt i with
  | some l => l.yieldDeadline == some s.clock.count
  | none => false

/-- The warning event of slot `i` is open: the warning condition holds (R54). -/
def State.warningDue (s : State) (i : Fin 16) : Bool :=
  match s.leaseAt i with
  | some l => s.warningCondition l
  | none => false

/-- EXPIRY: the lease ends EXPIRED and its lines are unbound involuntarily (R59). When the clock does not
stand at its expiry the event does not arise (log entry 7). One that arose before a
freeze is taken during it (log entry 36, DEDUCED). -/
def execExpiry (slot : Nat) (s : State) : Host.Outcome State Fault Refusal :=
  if h : slot < 16 then
    if !s.inReset && s.expiryDue ⟨slot, h⟩ then
      .next (s.engineEvent true (s.endLease ⟨slot, h⟩ .expired))
    else .next s
  else .next s

/-- YIELD_DEADLINE: the lease ends PREEMPTED and its lines are unbound involuntarily (R75). When the clock
does not stand at its yield deadline the event does not arise (log entry 7). One that arose before a
freeze is taken during it (log entry 36, DEDUCED). -/
def execYieldDeadline (slot : Nat) (s : State) : Host.Outcome State Fault Refusal :=
  if h : slot < 16 then
    if !s.inReset && s.yieldDue ⟨slot, h⟩ then
      .next (s.engineEvent true (s.endLease ⟨slot, h⟩ .preempted))
    else .next s
  else .next s

/-- WARNING_EVENT: WARNING is posted and warned this term is set (R54). When the condition does not hold the
event does not arise (log entry 7). One that arose before a
freeze is taken during it (log entry 36, DEDUCED). -/
def execWarningEvent (slot : Nat) (s : State) : Host.Outcome State Fault Refusal :=
  if h : slot < 16 then
    if !s.inReset && s.warningDue ⟨slot, h⟩ then
      .next (s.engineEvent false (s.updLease ⟨slot, h⟩ Lease.warn))
    else .next s
  else .next s

end Sys2Proof.Machine
end

