-- ==== Sys2Proof/Machine/Clock.lean ====
section
/-! DEFINITION. The lease clock block and the heartbeat inputs: TICK, REFCLK_EDGE, LOSS_EVENT, QUALIFICATION_EVENT, TIME, RESUME, SET_CLOCK and SET_HEARTBEAT (chapters 6 and 7). -/

namespace Sys2Proof.Machine

/-! ## Tick sources (R116) -/

/-- The tick sources. -/
inductive TickSource where
  | none | reference | local
deriving DecidableEq, Repr

/-- The source that the clock state and the policy select (R116, R125). -/
def Clock.source (c : Clock) : TickSource :=
  match c.state with
  | .start => .local
  | .reference => .reference
  | .fallback | .ready =>
    match c.policy with
    | .continue => .local
    | .freeze => .none

/-- The lease clock is frozen: FALLBACK or READY under FREEZE (R125). -/
def Clock.frozen (c : Clock) : Bool := c.source == .none

/-- A local tick begun from 0 (R118). -/
def TickProgress.local : TickProgress := { counted := 0, length := Config.localTickLength }

/-- An uncorrected reference tick begun from 0 (R117). -/
def TickProgress.reference : TickProgress := { counted := 0, length := Config.refTickLength }

/-- One more period counted (R116). Where a complete tick still waits for the events of the present one (R121),
the count goes on, and what is counted beyond the length belongs to the next tick (log entry 8). -/
def TickProgress.count (t : TickProgress) : TickProgress := { t with counted := t.counted + 1 }

/-- The tick in progress has counted its length: it is made as soon as it can be (R116). -/
def Clock.tickDue (c : Clock) : Bool :=
  match c.tick with
  | some t => decide (t.length ≤ t.counted)
  | none => false

/-- The periods counted beyond the length of the tick in progress, which the next tick begins with; 0 unless a
complete tick has waited (R116, R121). -/
def Clock.carried (c : Clock) : Nat :=
  match c.tick with
  | some t => t.counted - t.length
  | none => 0

/-- An edge of REFCLK ends the silence: the count returns to 0 and the condition is PRESENT (R122). -/
def Clock.edgeSeen (c : Clock) : Clock := { c with silence := 0, present := true }

/-- The clock enters REFERENCE: the correction sum returns to 0, the part-counted tick is discarded and a
reference tick begins (R117, R119, R126). A complete tick that has not been made is discarded too (log entry 33,
DESIGN CHOICE). -/
def Clock.enterReference (c : Clock) : Clock :=
  { c with state := .reference, correction := 0, qual := none, tick := some TickProgress.reference }

/-! ## The tick (R117, R120, R121) -/

/-- The correction sum after a reference tick, and the length of the next one (R117). The trim is the one in
force when the tick is made: where SET_CLOCK changed it during the tick, the tick in progress, when made, adds the
new trim's magnitude to the sum, and the next tick is the first whose length it can change (log entry 31, DESIGN
CHOICE: R129 says that the new trim applies from the tick after, and not which sum the tick in progress adds to). -/
def Clock.correct (c : Clock) : Nat × Nat :=
  let sum := c.correction + c.trim.natAbs
  if c.trim = 0 then (c.correction, Config.refTickLength)
  else if Config.correctionLimit ≤ sum then
    (sum - Config.correctionLimit, if 0 < c.trim then Config.refTickLength - 1 else Config.refTickLength + 1)
  else (sum, Config.refTickLength)

/-- The clock block after a tick: the lease clock has advanced by one and the next tick has begun (R116,
R117, R120). A reference tick made before its edges were all counted stands for those that are missing, and they
end the silence (R122, log entry 9), even one whose loss event stands open (log entry 35). -/
def Clock.tickMade (c : Clock) : Clock :=
  match c.source with
  | .reference =>
    { (if c.tickDue then c else c.edgeSeen) with
      count := c.count + 1
      correction := c.correct.1
      tick := some { counted := c.carried, length := c.correct.2 } }
  | .local => { c with count := c.count + 1, tick := some TickProgress.local }
  | .none => c

/-- An accepted change to this level qualifies under the edge selection (R109). -/
def EdgeSel.matches (e : EdgeSel) (high : Bool) : Bool :=
  match e with
  | .rising => high
  | .falling => !high
  | .both => true

/-- One sample of a heartbeat input at a tick (R108, R109, R111): a seeding sample becomes the accepted
level; else a level seen on as many consecutive samples as the debounce length is accepted, and a
qualifying edge sends a claim. A disabled input is not sampled. -/
def HbInput.sample (high : Bool) (x : HbInput) : HbInput :=
  if !x.enabled then x
  else if x.seeding then { x with level := high, seeding := false }
  else if high = x.level then { x with stable := 0 }
  else if x.stable + 1 = x.debounce then
    { x with
      level := high
      stable := 0
      claims := if x.edge.matches high then x.claims + 1 else x.claims }
  else { x with stable := x.stable + 1 }

/-- Some deadline or warning event of the present tick has not been taken: every one of them is taken
before the next tick (R121). -/
def State.eventsOpen (s : State) : Bool :=
  (allSlots.any fun i => s.expiryDue i || s.waitDue i || s.yieldDue i || s.warningDue i)
    || allLines.any s.quarantineDue

/-- What a tick does (R121): the lease clock advances, the line stage advances the patterns, the heartbeat
block samples the enabled inputs. -/
def State.tickTaken (s : State) (hb : BitVec 4) : State :=
  ((s.updClock Clock.tickMade).mapLines fun _ x => x.tick).mapInputs fun n x =>
    { x.sample (hb.getLsbD n.val) with pin := hb.getLsbD n.val }

/-- A tick can be made: the part runs, the clock has a source, and every event of the present tick has been
taken (R116, R121). -/
def State.tickReady (s : State) : Bool := !s.inReset && !s.clock.frozen && !s.eventsOpen

/-- The tick in progress is complete and can be made (R116, R121). -/
def State.tickComplete (s : State) : Bool := s.tickReady && s.clock.tickDue

/-- The levels on the heartbeat pins, as the last event that read them found them (log entry 6). -/
def State.pins (s : State) : BitVec 4 :=
  BitVec.ofBool (s.input 3).pin ++ BitVec.ofBool (s.input 2).pin ++ BitVec.ofBool (s.input 1).pin
    ++ BitVec.ofBool (s.input 0).pin

/-- TICK (R120). While the clock is frozen no tick is made (R125), and while an event of the present tick is
open the next tick waits for it (R121, log entry 8). -/
def execTick (hb : BitVec 4) (s : State) : Host.Outcome State Fault Refusal :=
  if s.tickReady then .next (s.tickTaken hb) else .next s

/-! ## Reference supervision (R122 to R126, R128) -/

/-- The move that a loss makes (R124, R126): REFERENCE and READY go to FALLBACK. From REFERENCE the source
changes, and a local tick begins under CONTINUE and none under FREEZE; from READY the tick runs on (R119). With the
source goes a complete tick that an open event of the present one held back, and the edges counted beyond it: R119
speaks of a part-counted tick alone (log entry 33, DESIGN CHOICE). -/
def Clock.lost (c : Clock) : Clock :=
  let d := { c with silence := Config.silenceLimit, present := false, qual := none }
  match c.state with
  | .start | .fallback => d
  | .reference =>
    { d with
      state := .fallback
      tick := match c.policy with
        | .continue => some TickProgress.local
        | .freeze => none }
  | .ready => { d with state := .fallback }

/-- LOSS_EVENT: 256 local oscillator periods have passed without an edge (R122). The loss event is taken when
the condition is PRESENT, and CLOCK is posted where the state moves (R128); with the condition LOST the
silence count stands at 256 and there is no event. While it stands open, an edge taken first ends the silence and
the loss does not arise (log entry 35, DESIGN CHOICE). -/
def execLossEvent (s : State) : Host.Outcome State Fault Refusal :=
  if s.inReset then .next s
  else if s.clock.present then
    let t := s.updClock Clock.lost
    match s.clock.state with
    | .start | .fallback => .next t
    | .reference | .ready => .next (s.attend none t.postClock)
  else .next (s.updClock fun c => { c with silence := Config.silenceLimit })

/-- The qualification of the reference (R123, R124, R126): START goes to REFERENCE without a notice; FALLBACK
goes to READY, and under AUTO on to REFERENCE, with CLOCK posted. -/
def State.qualify (s : State) : State :=
  match s.clock.state with
  | .start => s.updClock Clock.enterReference
  | .fallback =>
    match s.clock.resume with
    | .manual => s.attend none (s.updClock fun c => { c with state := .ready, qual := none }).postClock
    | .auto => s.attend none (s.updClock Clock.enterReference).postClock
  | .reference | .ready => s

/-- QUALIFICATION_EVENT: the reference has run for 2048 periods without a loss (R123). It stands for the
edges that are still missing, the last of which is the event (log entry 10); like an edge, it ends a silence whose
loss event stands open (log entry 35). In REFERENCE and READY there is no qualification. -/
def execQualificationEvent (s : State) : Host.Outcome State Fault Refusal :=
  if s.inReset then .next s
  else
    match s.clock.state with
    | .start | .fallback => .next (s.updClock Clock.edgeSeen).qualify
    | .reference | .ready => .next s

/-- REFCLK_EDGE (R122, R123): the silence ends; in START and FALLBACK the qualification count starts at 0 or
advances, and the edge that would take it to 2048 is the qualification event; in REFERENCE the edge is one
period of the tick in progress, and the edge that completes the tick makes it (R116, R117), with the heartbeat
levels last found on the pins (log entry 6). A complete tick that the events of the present one hold back is due,
and the edges count on (R121, log entry 8). An edge taken ahead of a loss event that stands open, the silence count
being at 256, ends the silence, and there is no loss (log entry 35, DESIGN CHOICE). -/
def execRefclkEdge (s : State) : Host.Outcome State Fault Refusal :=
  if s.inReset then .next s
  else
    let t := s.updClock Clock.edgeSeen
    match s.clock.state with
    | .start | .fallback =>
      match s.clock.qual with
      | none => .next (t.updClock fun c => { c with qual := some 0 })
      | some n =>
        if n < Config.lastQualification then .next (t.updClock fun c => { c with qual := some (n + 1) })
        else .next t.qualify
    | .reference =>
      let counted := t.updClock fun c => { c with tick := c.tick.map TickProgress.count }
      .next (if counted.tickComplete then counted.tickTaken counted.pins else counted)
    | .ready => .next t

/-! ## TIME, RESUME and SET_CLOCK (R127, R129, R131) -/

/-- The qualification count in response data: FFFFh unstarted, FFFEh absent (R156, R158). -/
def Clock.qualBytes (c : Clock) : List Byte :=
  match c.state with
  | .start | .fallback =>
    match c.qual with
    | none => [0xFF, 0xFF]
    | some n => bytes16 (BitVec.ofNat 16 n)
  | .reference | .ready => [0xFF, 0xFE]

/-- The attributes of a TIME answer (R158). -/
def Clock.attributes (c : Clock) : Byte :=
  let source : Byte :=
    match c.source with
    | .none => 0
    | .reference => 1
    | .local => 2
  bitAt 0 (!c.frozen) ||| (source <<< 1) ||| bitAt 3 (c.policy == .freeze) ||| bitAt 4 (c.resume == .auto)

/-- TIME (R131). -/
def execTime (s : State) : Host.Outcome State Fault Refusal :=
  match s.nextRequest with
  | some (p, .time) =>
    .next (s.conclude p .time false s fun t =>
      { status := .ok
        data := bytes32 t.clock.count ++ [t.clock.state.toByte, t.clock.attributes]
          ++ bytes16 (BitVec.ofInt 16 t.clock.trim) ++ t.clock.qualBytes })
  | _ => .next s

/-- The engine takes a RESUME of port `p` (R127). -/
def State.takeResume (s : State) (p : Port) : State :=
  match s.clock.state with
  | .ready =>
    s.conclude p .resume false (s.updClock Clock.enterReference).postClock fun t =>
      { status := .ok, data := bytes32 t.clock.count }
  | .start | .reference | .fallback =>
    s.refuse p .resume { status := .state, data := s.clock.state.toByte :: s.clock.qualBytes }

/-- RESUME (R127). -/
def execResume (s : State) : Host.Outcome State Fault Refusal :=
  match s.nextRequest with
  | some (p, .resume) => .next (s.takeResume p)
  | _ => .next s

/-- The clock with the settings of a SET_CLOCK in force, in the state it is in (R129): a changed trim returns
the correction sum to 0; a changed policy in FALLBACK or READY changes the source at once (R119), and discards the
tick in progress, complete or not (log entry 33, DESIGN CHOICE). -/
def Clock.configure (policy : Policy) (resume : ResumeMode) (trim : Int) (c : Clock) : Clock :=
  { c with
    policy := policy
    resume := resume
    trim := trim
    correction := if trim = c.trim then c.correction else 0
    tick :=
      if policy = c.policy then c.tick
      else
        match c.state with
        | .start | .reference => c.tick
        | .fallback | .ready =>
          match policy with
          | .continue => some TickProgress.local
          | .freeze => none }

/-- The engine takes a SET_CLOCK of port `p` (R129). In READY, a change of the resume mode to AUTO takes the
clock to REFERENCE with CLOCK posted. -/
def State.takeSetClock (s : State) (p : Port) (keep policy mode : Byte) (trim : Ticks) : State :=
  let policy' := Setting.read (keep.getLsbD 0) (policyOfByte policy)
  let mode' := Setting.read (keep.getLsbD 1) (resumeOfByte mode)
  let trim' := Setting.read (keep.getLsbD 2) (trimOf trim)
  if policy'.bad || mode'.bad || trim'.bad then s.refuse p .setClock { status := .range }
  else
    let c := s.clock
    let set := s.updClock (Clock.configure (policy'.over c.policy) (mode'.over c.resume) (trim'.over c.trim))
    let moved :=
      if c.state = .ready ∧ c.resume = .manual ∧ mode'.over c.resume = .auto then
        (set.updClock Clock.enterReference).postClock
      else set
    s.conclude p .setClock false moved fun t =>
      { status := .ok, data := t.clock.state.toByte :: bytes32 t.clock.count }

/-- SET_CLOCK (R129). -/
def execSetClock (s : State) : Host.Outcome State Fault Refusal :=
  match s.nextRequest with
  | some (p, .setClock keep policy mode trim) => .next (s.takeSetClock p keep policy mode trim)
  | _ => .next s

/-! ## SET_HEARTBEAT (R111, R113, R114) -/

/-- An input with its settings changed: enabling a disabled input marks it for a seeding sample, and that,
disabling an enabled one, and a changed debounce length each return the stable count to 0 (R111, R114). -/
def HbInput.configure (enable : Setting Bool) (edge : Setting EdgeSel) (debounce : Setting Nat)
    (x : HbInput) : HbInput :=
  let enabled := enable.over x.enabled
  let length := debounce.over x.debounce
  { x with
    enabled := enabled
    edge := edge.over x.edge
    debounce := length
    stable := if enabled ≠ x.enabled ∨ length ≠ x.debounce then 0 else x.stable
    seeding := if enabled && !x.enabled then true else x.seeding }

/-- A debounce length of 1 to 15 (R113). -/
def debounceOfByte (b : Byte) : Option Nat := if 1 ≤ b.toNat ∧ b.toNat ≤ 15 then some b.toNat else none

/-- The engine takes a SET_HEARTBEAT of port `p` (R113). -/
def State.takeSetHeartbeat (s : State) (p : Port) (inputs keep enable edge debounce : Byte) : State :=
  let enable' := Setting.read (keep.getLsbD 0) (some (enable.getLsbD 0))
  let edge' := Setting.read (keep.getLsbD 1) (edgeOfByte edge)
  let debounce' := Setting.read (keep.getLsbD 2) (debounceOfByte debounce)
  if inputs == 0 || decide (16 ≤ inputs.toNat) || edge'.bad || debounce'.bad then
    s.refuse p .setHeartbeat { status := .range }
  else
    s.conclude p .setHeartbeat false
      (s.mapInputs fun n x => if inputs.getLsbD n.val then x.configure enable' edge' debounce' else x)
      fun _ => { status := .ok }

/-- SET_HEARTBEAT (R113). -/
def execSetHeartbeat (s : State) : Host.Outcome State Fault Refusal :=
  match s.nextRequest with
  | some (p, .setHeartbeat inputs keep enable edge debounce) =>
    .next (s.takeSetHeartbeat p inputs keep enable edge debounce)
  | _ => .next s

end Sys2Proof.Machine
end

