-- ==== Sys2Proof/Machine/Ports.lean ====
section
/-! DEFINITION. The port receivers: SELN_FALL and TRANSACTION_RELEASE, and what MISO_x shifts out (sections 9.1 to 9.4). -/

namespace Sys2Proof.Machine

/-- The details of FORMAT (R151). -/
inductive FormatDetail where
  | truncated | crc | length
deriving DecidableEq, Repr

/-- The code of a detail (R151). -/
def FormatDetail.toByte : FormatDetail → Byte
  | .truncated => 0x01 | .crc => 0x02 | .length => 0x03

/-- What the receiver makes of a request frame (R151, R152). -/
inductive Received where
  /-- A receiver answer, by the first check that fails. -/
  | answered (a : Answer)
  /-- A well-formed request. -/
  | accepted (r : Request)
deriving DecidableEq, Repr

/-- The FORMAT answer with its detail. -/
def formatAnswer (d : FormatDetail) : Received := .answered { status := .format, data := [d.toByte] }

/-- Checks 3 to 5 of R151 on a complete frame whose CRC is right. -/
def checkCommand (p : Port) (code : Byte) (args : List Byte) : Received :=
  match commandOfCode code with
  | none => .answered { status := .unknown }
  | some c =>
    match Request.parse c args with
    | none => formatAnswer .length
    | some r => if c.supervisor && p != .A then .answered { status := .privilege } else .accepted r

/-- The checks of R151 on the complete bytes of a request transaction, `code` first. A length byte above
24 is answered LENGTH before the checks of completeness and CRC; bytes after the frame are ignored (R147). -/
def receive (p : Port) (code : Byte) (rest : List Byte) : Received :=
  match rest with
  | [] => formatAnswer .truncated
  | n :: body =>
    if Config.maxArguments < n.toNat then formatAnswer .length
    else
      match body[n.toNat]? with
      | none => formatAnswer .truncated
      | some check =>
        let args := body.take n.toNat
        if check = crcOf (code :: n :: args) then checkCommand p code args else formatAnswer .crc

/-- What a release of a request transaction leaves in the buffer (R150 to R152). The echo is the first
byte as received. -/
def receivedBuffer (p : Port) (code : Byte) (rest : List Byte) : Buffer :=
  match receive p code rest with
  | .answered a => .ready (Response.make code a)
  | .accepted r => .pending r

/-- The buffer after the release of a transaction that shifted out `copy`: an empty transaction or a read
leaves it, a request against a copy in PENDING is discarded whole, and any other request is checked
(R146, R150). -/
def releasedBuffer (p : Port) (copy now : Buffer) (bytes : List Byte) : Buffer :=
  match bytes with
  | [] => now
  | code :: rest =>
    if code = 0 then now
    else
      match copy with
      | .pending _ => now
      | .empty | .ready _ => receivedBuffer p code rest

/-- SELN_FALL: on an attached port a transaction starts with a copy of the buffer; on a detached port, or
in reset, it starts a transaction that is ignored in whole (R145, R146). With SELN_x already low there is
no falling edge (log entry 7). -/
def execSelnFall (x : Port) (s : State) : Host.Outcome State Fault Refusal :=
  match (s.port x).transaction with
  | .idle =>
    .next (s.updPort x fun q =>
      { q with transaction := if s.attached x then .shifting q.buffer else .ignored })
  | .ignored | .shifting _ => .next s

/-- TRANSACTION_RELEASE: the transaction ends, and a request in it is dealt with (R146, R150 to R152). An
ignored transaction has no effect; with SELN_x high there is no rising edge (log entry 7). -/
def execTransactionRelease (x : Port) (mosi : List Bool) (s : State) : Host.Outcome State Fault Refusal :=
  match (s.port x).transaction with
  | .idle => .next s
  | .ignored => .next (s.updPort x fun q => { q with transaction := .idle })
  | .shifting copy =>
    .next (s.updPort x fun q =>
      { q with transaction := .idle, buffer := releasedBuffer x copy q.buffer (bytesOfBits mosi) })

/-! ## What MISO_x shifts out (R146 to R148) -/

/-- The response bytes of a copy: the state byte and, when it is READY, the response frame (R148). -/
def Buffer.frame : Buffer → List Byte
  | .empty => [0xA0]
  | .pending _ => [0xA5]
  | .ready r =>
    0xAA :: r.echo :: r.status.toByte :: BitVec.ofNat 8 r.data.length :: (r.data ++ [r.crc])

/-- Byte `k` of the transaction in progress on MISO_x; none at high impedance. Every byte after the last
of the copy reads FFh (R147). -/
def State.misoByte (s : State) (x : Port) (k : Nat) : Option Byte :=
  match (s.port x).transaction with
  | .idle | .ignored => none
  | .shifting copy => some (copy.frame.getD k 0xFF)

/-- Bit `n` of the transaction in progress on MISO_x, from the first, which is valid from the falling edge of
SELN_x: each byte leaves most significant bit first (R145). None at high impedance. -/
def State.misoBit (s : State) (x : Port) (n : Nat) : Option Bool :=
  (s.misoByte x (n / 8)).map fun b => b.getLsbD (7 - n % 8)

end Sys2Proof.Machine
end

