-- ==== Sys2Proof/Machine/Reports.lean ====
section
/-! DEFINITION. The commands that report: QUERY, PEEK, LIST and STATUS (chapters 1, 8 and 9). -/

namespace Sys2Proof.Machine

/-- The attributes of a record: bit 0 yieldable, bit 1 warned this term (R158). -/
def Lease.attributes (l : Lease) : Byte :=
  bitAt 0 l.yieldable ||| bitAt 1 (match l.holding with
    | some h => h.warned
    | none => false)

/-- The fields that QUERY and PEEK report alike, from the tag to the queue position (R158); an absent item
is sent as 0, an absent renewal source as FFh (R156). -/
def State.recordBytes (s : State) (i : Fin 16) (l : Lease) : List Byte :=
  l.tag :: bytes16 l.lines ++ [BitVec.ofNat 8 l.level.val, l.attributes] ++ bytes16 l.term
    ++ bytes16 (l.waitLimit.getD 0)
    ++ [sourceByte l.source, l.cap.getD 0, l.count.getD 0, flagsWithCause l.flags l.cause,
        BitVec.ofNat 8 (if l.isWaiting then s.position i else 0)]

/-- Ticks remaining to a deadline, or 0 where it is absent (R19, R20). -/
def State.leftBytes (s : State) (d : Option Word) : List Byte :=
  match d with
  | some d => bytes16 (s.ticksLeft d)
  | none => [0, 0]

/-- An absolute deadline, or 0 where it is absent (R21). -/
def deadlineBytes (d : Option Word) : List Byte := bytes32 (d.getD 0)

/-- The expiry, present in ACTIVE and YIELDING (R3). -/
def Lease.expiry (l : Lease) : Option Word := l.holding.map Holding.expiry

/-- The data of a QUERY answered OK (R19, R158). -/
def State.queryData (s : State) (i : Fin 16) : List Byte :=
  match s.leaseAt i with
  | none => []
  | some l =>
    s.handleBytes i ++ l.state.toByte :: s.recordBytes i l ++ s.leftBytes l.expiry
      ++ s.leftBytes l.waitDeadline ++ s.leftBytes l.yieldDeadline

/-- The engine takes a QUERY of port `p` (R19). -/
def State.takeQuery (s : State) (p : Port) (h : Handle) : State :=
  match s.checkHandle (some p) h with
  | .refused st => s.refuse p .query { status := st }
  | .current i _ => s.conclude p .query false s fun t => { status := .ok, data := t.queryData i }

/-- QUERY (R19). -/
def execQuery (s : State) : Host.Outcome State Fault Refusal :=
  match s.nextRequest with
  | some (p, .query h) => .next (s.takeQuery p h)
  | _ => .next s

/-- The data of a PEEK answered OK (R21, R158). -/
def State.peekData (s : State) (i : Fin 16) : List Byte :=
  match s.leaseAt i with
  | none => s.handleBytes i ++ [LeaseState.free.toByte]
  | some l =>
    s.handleBytes i ++ [l.state.toByte, portByte l.holder] ++ s.recordBytes i l
      ++ [yesNo (l.isWaiting && s.orderEligible i)] ++ deadlineBytes l.expiry
      ++ deadlineBytes l.waitDeadline ++ deadlineBytes l.yieldDeadline ++ bytes32 s.clock.count

/-- The engine takes a PEEK of port `p` (R21). -/
def State.takePeek (s : State) (p : Port) (slot : Byte) : State :=
  match slotOfByte slot with
  | none => s.refuse p .peek { status := .range }
  | some i => s.conclude p .peek false s fun t => { status := .ok, data := t.peekData i }

/-- PEEK (R21). -/
def execPeek (s : State) : Host.Outcome State Fault Refusal :=
  match s.nextRequest with
  | some (p, .peek slot) => .next (s.takePeek p slot)
  | _ => .next s

/-- One LIST entry, for a slot that holds a lease of port `p` (R135, R158). -/
def State.listEntry (s : State) (p : Port) (i : Fin 16) : List Byte :=
  match s.leaseAt i with
  | some l =>
    if l.holder = p then
      [(slotByte i <<< 4) ||| l.state.toByte, (s.slot i).gen, flagsWithCause l.flags l.cause, l.tag]
    else []
  | none => []

/-- The data of a LIST: an entry for each non-FREE slot of the port, ascending, then its CLOCK flag (R135). -/
def State.listData (s : State) (p : Port) : List Byte :=
  allSlots.flatMap (s.listEntry p) ++ [yesNo (s.port p).clockFlag]

/-- LIST (R135). -/
def execList (s : State) : Host.Outcome State Fault Refusal :=
  match s.nextRequest with
  | some (p, .list) =>
    .next (s.conclude p .list false s fun t => { status := .ok, data := t.listData p })
  | _ => .next s

/-- The heartbeat byte of STATUS: accepted levels in bits 0 to 3, enables in bits 4 to 7 (R159). -/
def State.heartbeatByte (s : State) : Byte :=
  allInputs.foldl
    (fun b n => b ||| bitAt n.val (s.input n).level ||| bitAt (n.val + 4) (s.input n).enabled) 0

/-- The attached ports as a port set (R159). -/
def State.attachedByte (s : State) : Byte :=
  bitAt 0 (s.attached .A) ||| bitAt 1 (s.attached .B) ||| bitAt 2 (s.attached .C) ||| bitAt 3 (s.attached .D)

/-- The data of a STATUS of port `p` (R159). -/
def State.statusData (s : State) (p : Port) : List Byte :=
  let x := s.port p
  [s.clock.state.toByte, s.heartbeatByte, s.attachedByte, BitVec.ofNat 8 x.quota,
    BitVec.ofNat 8 (s.slotUse p), BitVec.ofNat 8 x.ceiling.val] ++ bytes16 x.margin ++ bytes16 x.window

/-- STATUS (R159). -/
def execStatus (s : State) : Host.Outcome State Fault Refusal :=
  match s.nextRequest with
  | some (p, .status) =>
    .next (s.conclude p .status false s fun t => { status := .ok, data := t.statusData p })
  | _ => .next s

end Sys2Proof.Machine
end

