-- ==== Sys2Proof/Machine/Supervision.lean ====
section
/-! DEFINITION. SET_PORT, DETACH, ATTACH, PEN_CHANGE, SOFT_RESET, DEVICE_RESET and RESET_RELEASE (chapter 10). -/

namespace Sys2Proof.Machine

/-! ## SET_PORT (R163, R164) -/

/-- A port with its settings changed (R164). -/
def PortState.configure (quota : Setting Nat) (ceiling : Setting (Fin 4)) (margin window : Setting Ticks)
    (x : PortState) : PortState :=
  { x with
    quota := quota.over x.quota
    ceiling := ceiling.over x.ceiling
    margin := margin.over x.margin
    window := window.over x.window }

/-- A level ceiling of 0 to 3. -/
def ceilingOfByte (b : Byte) : Option (Fin 4) := if h : b.toNat < 4 then some ⟨b.toNat, h⟩ else none

/-- A tick count of 0 to 4095: a warning margin or a yield window. -/
def marginOf (t : Ticks) : Option Ticks := if t.toNat ≤ Config.maxMargin then some t else none

/-- The leases of port `p` evaluated against its margin: WARNING is posted to each whose condition holds (R56). -/
def State.warnPort (s : State) (p : Port) : State :=
  s.mapSlots fun _ x =>
    { x with lease := x.lease.map fun l => if l.holder = p ∧ s.warningCondition l then l.warn else l }

/-- The evaluation of R56: a margin that SET_PORT applies is evaluated against the leases of the port, and one
marked keep is not (R163, R164). One applied at the value in force is evaluated too (log entry 30). -/
def State.warnOnMargin (s : State) (p : Port) (margin : Setting Ticks) : State :=
  match margin with
  | .to _ => s.warnPort p
  | .keep | .undefined => s

/-- A new quota below the port's present slot use (R163, check 2). -/
def quotaTooLow (quota : Setting Nat) (use : Nat) : Bool :=
  match quota with
  | .to n => decide (n < use)
  | .keep | .undefined => false

/-- The engine takes a SET_PORT of port `p` (R163). -/
def State.takeSetPort (s : State) (p : Port) (port keep quota ceiling : Byte) (margin window : Ticks) : State :=
  let quota' := Setting.read (keep.getLsbD 0) (upTo Config.maxQuota quota.toNat)
  let ceiling' := Setting.read (keep.getLsbD 1) (ceilingOfByte ceiling)
  let margin' := Setting.read (keep.getLsbD 2) (marginOf margin)
  let window' := Setting.read (keep.getLsbD 3) (marginOf window)
  match portOfByte port with
  | none => s.refuse p .setPort { status := .range }
  | some q =>
    if quota'.bad || ceiling'.bad || margin'.bad || window'.bad then
      s.refuse p .setPort { status := .range }
    else if quotaTooLow quota' (s.slotUse q) then s.refuse p .setPort { status := .state }
    else
      s.conclude p .setPort false
        ((s.updPort q (PortState.configure quota' ceiling' margin' window')).warnOnMargin q margin')
        fun _ => { status := .ok }

/-- SET_PORT (R163). -/
def execSetPort (s : State) : Host.Outcome State Fault Refusal :=
  match s.nextRequest with
  | some (p, .setPort port keep quota ceiling margin window) =>
    .next (s.takeSetPort p port keep quota ceiling margin window)
  | _ => .next s

/-! ## Attachment (R167 to R171) -/

/-- The port holds at least one slot, so that its detach is followed by a grant scan (R170). -/
def State.holdsSlots (s : State) (p : Port) : Bool := allSlots.any fun i => (s.slot i).heldBy p

/-- An item of port `q`'s attach state changed by `f`; when the attachment falls by it, the detach is taken
within the same event (R167, R168). The second result says whether a grant scan follows (R170). -/
def State.changeAttach (s : State) (q : Port) (f : PortState → PortState) : State × Bool :=
  let t := s.updPort q f
  if s.attached q && !t.attached q then (t.detachPort q, s.holdsSlots q) else (t, false)

/-- The engine takes a DETACH of port `p` (R168). -/
def State.takeDetach (s : State) (p : Port) (port : Byte) : State :=
  match portOfByte port with
  | none => s.refuse p .detach { status := .range }
  | some .A => s.refuse p .detach { status := .state }
  | some q =>
    let changed := s.changeAttach q fun x => { x with cmdDetach := true }
    s.conclude p .detach changed.2 changed.1 fun _ => { status := .ok }

/-- DETACH (R168). -/
def execDetach (s : State) : Host.Outcome State Fault Refusal :=
  match s.nextRequest with
  | some (p, .detach port) => .next (s.takeDetach p port)
  | _ => .next s

/-- The engine takes an ATTACH of port `p` (R168, R169): the flag is cleared, and the port is attached when
PEN_x is HIGH. -/
def State.takeAttach (s : State) (p : Port) (port : Byte) : State :=
  match portOfByte port with
  | none => s.refuse p .attach { status := .range }
  | some q =>
    s.conclude p .attach false (s.updPort q fun x => { x with cmdDetach := false }) fun _ => { status := .ok }

/-- ATTACH (R168). -/
def execAttach (s : State) : Host.Outcome State Fault Refusal :=
  match s.nextRequest with
  | some (p, .attach port) => .next (s.takeAttach p port)
  | _ => .next s

/-- PEN_CHANGE: a new level of PEN_x is accepted, and the port is attached or detached by it (R167). The
level already accepted is no change, and in reset the ports ignore their signals (R176). -/
def execPenChange (x : Port) (high : Bool) (s : State) : Host.Outcome State Fault Refusal :=
  if s.inReset || (s.port x).pen == high then .next s
  else
    let changed := s.changeAttach x fun q => { q with pen := high }
    .next (s.engineEvent changed.2 changed.1)

/-! ## SOFT_RESET (R173, R174) -/

/-- The changes of a soft reset, less the answer to it (R173): every slot FREE, the queue empty, every line
that is not FREE at its rest drive, every buffer empty, every CLOCK flag clear and every gap ended. -/
def State.softResetChanges (s : State) : State :=
  (((s.mapSlots fun _ x => x.toFree).setQueue []).mapLines fun _ x =>
    if x.isFree then x else x.toRest).mapPorts
      fun _ x => { x with buffer := .empty, clockFlag := false, gap := none }

/-- SOFT_RESET (R173). -/
def execSoftReset (s : State) : Host.Outcome State Fault Refusal :=
  match s.nextRequest with
  | some (p, .softReset) =>
    .next (s.conclude p .softReset true s.softResetChanges fun _ => { status := .ok })
  | _ => .next s

/-! ## Device reset (R176, R177) -/

/-- DEVICE_RESET: every operation ends and every block holds its reset values (R176). A transaction in
progress is ignored in whole, since its chip select is still low (log entry 12); the commands that wait are
the sender's and stay, and the levels on the heartbeat pins are the board's and stay (log entry 13). -/
def execDeviceReset (s : State) : Host.Outcome State Fault Refusal :=
  .next
    { State.reset with
      ports := PerPort.tabulate fun p =>
        { State.reset.port p with transaction := (s.port p).transaction.ignore }
      inputs := Vector.ofFn fun n => { HbInput.reset with pin := (s.input n).pin }
      choices := s.choices
      pending := s.pending }

/-- RESET_RELEASE: within one event the part samples HB0 to HB3 and PEN_A to PEN_D, begins a local tick and
runs (R177). When the part is not in reset there is no release (log entry 7). -/
def execResetRelease (hb : BitVec 4) (pen : PortSet) (s : State) : Host.Outcome State Fault Refusal :=
  if s.inReset then
    .next
      { ((s.mapInputs fun n x =>
            { x with level := hb.getLsbD n.val, stable := 0, seeding := false, pin := hb.getLsbD n.val }).mapPorts
          fun p x => { x with pen := pen.getLsbD (portBit p) }).updClock
            fun c => { c with tick := some TickProgress.local } with
        inReset := false }
  else .next s

end Sys2Proof.Machine
end

