-- ==== Sys2Proof/Machine/Dispatch.lean ====
section
/-! DEFINITION. The meaning of every command, one arm for each row of spec/opcode_table.json. -/

namespace Sys2Proof.Machine

def exec (i : Instr) (s : State) : Host.Outcome State Fault Refusal :=
  match i with
  | .selnFall x => Sys2Proof.Machine.execSelnFall x s
  | .transactionRelease x mosi => Sys2Proof.Machine.execTransactionRelease x mosi s
  | .acquire => Sys2Proof.Machine.execAcquire s
  | .renew => Sys2Proof.Machine.execRenew s
  | .release => Sys2Proof.Machine.execRelease s
  | .cancel => Sys2Proof.Machine.execCancel s
  | .drive => Sys2Proof.Machine.execDrive s
  | .query => Sys2Proof.Machine.execQuery s
  | .list => Sys2Proof.Machine.execList s
  | .ack => Sys2Proof.Machine.execAck s
  | .mask => Sys2Proof.Machine.execMask s
  | .time => Sys2Proof.Machine.execTime s
  | .lines => Sys2Proof.Machine.execLines s
  | .status => Sys2Proof.Machine.execStatus s
  | .setLine => Sys2Proof.Machine.execSetLine s
  | .setPort => Sys2Proof.Machine.execSetPort s
  | .setHeartbeat => Sys2Proof.Machine.execSetHeartbeat s
  | .setClock => Sys2Proof.Machine.execSetClock s
  | .resume => Sys2Proof.Machine.execResume s
  | .revoke => Sys2Proof.Machine.execRevoke s
  | .detach => Sys2Proof.Machine.execDetach s
  | .attach => Sys2Proof.Machine.execAttach s
  | .peek => Sys2Proof.Machine.execPeek s
  | .softReset => Sys2Proof.Machine.execSoftReset s
  | .tick hb => Sys2Proof.Machine.execTick hb s
  | .renewalClaim input => Sys2Proof.Machine.execRenewalClaim input s
  | .expiry slot => Sys2Proof.Machine.execExpiry slot s
  | .waitDeadline slot => Sys2Proof.Machine.execWaitDeadline slot s
  | .yieldDeadline slot => Sys2Proof.Machine.execYieldDeadline slot s
  | .quarantineDeadline line => Sys2Proof.Machine.execQuarantineDeadline line s
  | .warningEvent slot => Sys2Proof.Machine.execWarningEvent slot s
  | .lossEvent => Sys2Proof.Machine.execLossEvent s
  | .qualificationEvent => Sys2Proof.Machine.execQualificationEvent s
  | .gapEnd x => Sys2Proof.Machine.execGapEnd x s
  | .penChange x high => Sys2Proof.Machine.execPenChange x high s
  | .deviceReset => Sys2Proof.Machine.execDeviceReset s
  | .resetRelease hb pen => Sys2Proof.Machine.execResetRelease hb pen s
  | .refclkEdge => Sys2Proof.Machine.execRefclkEdge s

end Sys2Proof.Machine
end

