-- ==== Sys2Proof/Machine/Autonomy.lean ====
section
/-! DEFINITION. What the part does by itself while no command waits: it takes the events that stand open, and then a period of its local oscillator passes (log entry 5). -/

namespace Sys2Proof.Machine

/-- The deadline and warning events of slot `i` that stand open (R42, R54, R59, R75). -/
def State.openAt (s : State) (i : Fin 16) : List Instr :=
  (if s.expiryDue i then [.expiry i.val] else []) ++ (if s.waitDue i then [.waitDeadline i.val] else [])
    ++ (if s.yieldDue i then [.yieldDeadline i.val] else [])
    ++ (if s.warningDue i then [.warningEvent i.val] else [])

/-- The ends of gaps that stand open: the timer has counted its 1024 periods (R143). -/
def State.openGap (s : State) (p : Port) : List Instr :=
  match (s.port p).gap with
  | some n => if Config.gapLength ≤ n then [.gapEnd p] else []
  | none => []

/-- Every event of the part that stands open: the deadline and warning events of the tick (R121), the
renewal claims and the port request that the engine has not yet taken (R110, R154), a complete tick (R116),
a loss (R122), and the ends of gaps (R143). -/
def State.openEvents (s : State) : List Instr :=
  if s.inReset then []
  else
    allSlots.flatMap s.openAt
      ++ (allLines.filter s.quarantineDue).map (fun l => .quarantineDeadline l.val)
      ++ (allInputs.filter fun n => 0 < (s.input n).claims).map (fun n => .renewalClaim n.val)
      ++ (match s.nextRequest with
          | some (_, r) => [r.instr]
          | none => [])
      ++ (if s.tickComplete then [.tick s.pins] else [])
      ++ (if s.clock.present && decide (Config.silenceLimit ≤ s.clock.silence) then [.lossEvent] else [])
      ++ s.openGap .A ++ s.openGap .B ++ s.openGap .C ++ s.openGap .D

/-- The clock block after one period of the local oscillator: a period of silence (R122), and a period of
the tick in progress where the oscillator is its source (R116, R118). -/
def Clock.oscillate (c : Clock) : Clock :=
  { c with
    silence := min (c.silence + 1) Config.silenceLimit
    tick := match c.source with
      | .local => c.tick.map TickProgress.count
      | .none | .reference => c.tick }

/-- A port after one period of the local oscillator: a running gap timer has counted it (R142). -/
def PortState.oscillate (x : PortState) : PortState :=
  { x with gap := x.gap.map fun n => min (n + 1) Config.gapLength }

/-- One period of the local oscillator (R118, R122, R142). In reset nothing counts it (R132). -/
def State.oscillate (s : State) : State :=
  if s.inReset then s else (s.updClock Clock.oscillate).mapPorts fun _ x => x.oscillate

/-- What the part does with no command waiting: one open event, by the free choice where several stand open
(log entry 4), and with none open a period of the local oscillator. -/
def idleStep (s : State) : Host.Outcome State Fault Refusal :=
  match s.openEvents with
  | [] => .next s.oscillate
  | [c] => exec c s
  | c :: d :: cs =>
    exec ((c :: d :: cs).getD (Config.eventChoice s.choices % (cs.length + 2)) c)
      { s with choices := s.choices + 1 }

end Sys2Proof.Machine
end

