-- ==== Sys2Proof/Machine/Step.lean ====
section
/-! DEFINITION. One step: the command at the front of the queue, or, with none waiting, what the part does by itself. -/

namespace Sys2Proof.Machine

/-- The command at the front of the queue is taken off it and run. With the queue empty the part goes on by
itself (log entry 5). -/
def step (s : State) : Host.Outcome State Fault Refusal :=
  match s.pending with
  | c :: rest => exec c { s with pending := rest }
  | [] => idleStep s

/-- `s` with the command that the word spells put at the front of its queue; `s` itself where the word spells
none, which is every word (spec/opcode_table.json gives no row any bits). -/
def State.withFetchWord (s : State) (nbits w : Nat) : State :=
  match Sys2Proof.decodeTableWord nbits w with
  | some c => { s with pending := c :: s.pending }
  | none => s

end Sys2Proof.Machine
end

