-- ==== Sys2Proof/Machine/Frames.lean ====
section
/-! DEFINITION. What a sender clocks out on MOSI_x: the bits of bytes, and the request frame of every request (R145, R148, R157). -/

namespace Sys2Proof.Machine

/-- The bits of a byte, most significant first (R145). -/
def byteBits (b : Byte) : List Bool :=
  [b.getLsbD 7, b.getLsbD 6, b.getLsbD 5, b.getLsbD 4, b.getLsbD 3, b.getLsbD 2, b.getLsbD 1, b.getLsbD 0]

/-- The bits of bytes, first byte first. -/
def frameBits (bytes : List Byte) : List Bool := bytes.flatMap byteBits

/-- The argument length n that the receiver accepts for a command (R157). -/
def Command.argLength : Command → Nat
  | .acquire => 12
  | .renew => 4
  | .release | .cancel | .query | .revoke => 2
  | .drive => 8
  | .list | .time | .lines | .status | .resume | .softReset => 0
  | .ack => 3
  | .mask => 2
  | .setLine => 7
  | .setPort => 8
  | .setHeartbeat => 5
  | .setClock => 5
  | .detach | .attach | .peek => 1

/-- The two bytes of a handle (R156). -/
def Handle.bytes (h : Handle) : List Byte := [h.slot, h.gen]

/-- The argument bytes of a request, in the order of R157. -/
def Request.args : Request → List Byte
  | .acquire a =>
    [a.mode] ++ bytes16 a.lines ++ [a.level, a.options] ++ bytes16 a.term ++ [a.tag] ++ bytes16 a.waitLimit
      ++ [a.source, a.cap]
  | .renew h newTerm => h.bytes ++ bytes16 newTerm
  | .release h | .cancel h | .query h | .revoke h => h.bytes
  | .drive h set kind delay onTime period => h.bytes ++ bytes16 set ++ [kind, delay, onTime, period]
  | .list | .time | .lines | .status | .resume | .softReset => []
  | .ack target gen kinds => [target, gen, kinds]
  | .mask kinds mode => [kinds, mode]
  | .setLine set keep rest fault qlen access => bytes16 set ++ [keep, rest, fault, qlen, access]
  | .setPort port keep quota ceiling margin window =>
    [port, keep, quota, ceiling] ++ bytes16 margin ++ bytes16 window
  | .setHeartbeat inputs keep enable edge debounce => [inputs, keep, enable, edge, debounce]
  | .setClock keep policy mode trim => [keep, policy, mode] ++ bytes16 trim
  | .detach port | .attach port => [port]
  | .peek slot => [slot]

/-- The request frame of a request: command code, argument length, arguments and CRC (R148, R149). -/
def Request.frame (r : Request) : List Byte :=
  let body := r.command.code :: BitVec.ofNat 8 r.args.length :: r.args
  body ++ [crcOf body]

end Sys2Proof.Machine
end

