-- ==== Sys2Proof/Safety.lean ====
section
/-! DEFINITION. The laws that the spec gives for every state of the part, in the terms that the statements use. -/

namespace Sys2Proof.Machine

/-- The lease in slot `i` is ACTIVE or YIELDING and line `l` is in its set. -/
def State.holdsLine (s : State) (i l : Fin 16) : Bool :=
  match s.leaseAt i with
  | some x => x.holding.isSome && x.lines.getLsbD l.val
  | none => false

/-- R87: a line is bound to a lease exactly when that lease is ACTIVE or YIELDING and its set holds the line. -/
abbrev BindingLaw (s : State) : Prop :=
  ∀ l i : Fin 16, (s.line l).boundSlot = some i ↔ s.holdsLine i l = true

/-- R34: the wait queue holds every WAITING lease exactly once and no other, ordered by level. -/
abbrev QueueLaw (s : State) : Prop :=
  s.queue.Nodup ∧ (∀ i : Fin 16, i ∈ s.queue ↔ s.waitingAt i = true)
    ∧ s.queue.Pairwise fun i j => s.levelAt j ≤ s.levelAt i

/-- Two slots hold live leases of one port (R27). -/
def State.sameLivePort (s : State) (i j : Fin 16) : Bool :=
  match s.leaseAt i, s.leaseAt j with
  | some a, some b => a.live && b.live && a.holder == b.holder
  | _, _ => false

/-- R27: no two leases of one port that are WAITING, ACTIVE or YIELDING have intersecting line sets. -/
abbrev SelfLaw (s : State) : Prop :=
  ∀ i j : Fin 16, i ≠ j → s.sameLivePort i j = true → intersects (s.linesAt i) (s.linesAt j) = false

/-- R17: the number of non-FREE slots of a port never exceeds its quota, which is at most 16. -/
abbrev QuotaLaw (s : State) : Prop :=
  ∀ p : Port, s.slotUse p ≤ (s.port p).quota ∧ (s.port p).quota ≤ Config.maxQuota

/-- The flags that may be pending in a lease's state (R16, table after it). -/
def Lease.flagsLegal (l : Lease) : Bool :=
  match l.phase with
  | .waiting _ => l.flags == {}
  | .active _ => !l.flags.yield && !l.flags.ended
  | .yielding _ _ => !l.flags.withdrawn && !l.flags.ended
  | .ended _ _ => (l.flags.minus Notices.endedOnly) == {}

/-- R16: only the flags of a lease's state are pending in it. -/
abbrev FlagLaw (s : State) : Prop :=
  ∀ i : Fin 16, ∀ l ∈ s.leaseAt i, l.flagsLegal = true

/-- What a line drives by its occupancy (R88). -/
def Line.drive (x : Line) : Drive :=
  match x.occ with
  | .free => x.rest
  | .bound _ d => d.level
  | .quarantine _ => x.fault

/-- R88: a bound line drives its holder drive, a FREE line its rest drive, a line in QUARANTINE its fault drive. -/
abbrev DriveLaw (s : State) : Prop := ∀ l : Fin 16, (s.line l).current = (s.line l).drive

/-- R141: ATTN_x is what the port's unmasked pending notices, mode, gap and attachment make it. -/
abbrev AttentionLaw (s : State) : Prop := ∀ p : Port, (s.port p).attn = s.attnLevel p

/-- A transaction is shifting out a copy of the buffer. -/
def Transaction.isShifting : Transaction → Bool
  | .shifting _ => true
  | .idle | .ignored => false

/-- R171: a detached port holds no slot, its buffer is EMPTY, its CLOCK flag clear, no gap runs, and no
transaction shifts out a copy. -/
abbrev DetachedLaw (s : State) : Prop :=
  ∀ p : Port, s.attached p = false →
    s.slotUse p = 0 ∧ (s.port p).buffer = .empty ∧ (s.port p).clockFlag = false ∧ (s.port p).gap = none
      ∧ (s.port p).transaction.isShifting = false

/-- R161, R151: no supervisor command is pending on ports B to D; R167: port A's command-detach flag is clear. -/
abbrev PrivilegeLaw (s : State) : Prop :=
  (∀ p : Port, p ≠ .A → ∀ r ∈ (s.port p).buffer.request, r.command.supervisor = false)
    ∧ (s.port .A).cmdDetach = false

/-- R68, R72: no ACTIVE lease is called on by a justifying waiter, and every YIELDING lease is. -/
abbrev YieldLaw (s : State) : Prop :=
  ∀ j : Fin 16, (s.activeAt j = true → s.calledOn j = false) ∧ (s.yieldingAt j = true → s.calledOn j = true)

/-- The tick in progress fits its source (R116 to R118). A reference tick may have counted beyond its length,
while it waits for the events of the present tick (R121, log entry 8). -/
def Clock.tickFits (c : Clock) : Bool :=
  match c.source, c.tick with
  | .none, t => t.isNone
  | .local, some t => t.length == Config.localTickLength && decide (t.counted ≤ t.length)
  | .reference, some t =>
    decide (Config.refTickLength - 1 ≤ t.length) && decide (t.length ≤ Config.refTickLength + 1)
  | _, none => false

/-- Chapter 7: the counts of the clock block stay in their ranges (R117, R122, R123), the qualification count
is started in START and FALLBACK only (R123), the condition is PRESENT in REFERENCE and READY (R124), READY
waits under MANUAL (R126), and the tick in progress is one of the present source (R116). -/
abbrev ClockLaw (s : State) : Prop :=
  s.clock.silence ≤ Config.silenceLimit ∧ s.clock.correction < Config.correctionLimit
    ∧ s.clock.trim.natAbs ≤ 255
    ∧ (∀ n ∈ s.clock.qual, n ≤ Config.lastQualification
        ∧ (s.clock.state = .start ∨ s.clock.state = .fallback))
    ∧ (s.clock.state = .reference ∨ s.clock.state = .ready → s.clock.present = true)
    ∧ (s.clock.state = .ready → s.clock.resume = .manual)
    ∧ (s.inReset = false → s.clock.tickFits = true)

/-- R107, R108: the debounce length is 1 to 15 and the stable count never reaches it; a disabled input's stable
count is 0 (R111). -/
abbrev HeartbeatLaw (s : State) : Prop :=
  ∀ n : Fin 4, 1 ≤ (s.input n).debounce ∧ (s.input n).debounce ≤ 15
    ∧ (s.input n).stable < (s.input n).debounce ∧ ((s.input n).enabled = false → (s.input n).stable = 0)

/-- A record within R2: line set not empty, term at least 8, wait limit and cap not 0 when present, count not
above the cap. -/
def Lease.inRange (l : Lease) : Bool :=
  l.lines != 0 && decide (Config.minTerm ≤ l.term.toNat) && l.waitLimit != some 0 && l.cap != some 0
    && (match l.cap, l.count with
        | some c, some n => decide (n.toNat ≤ c.toNat)
        | _, _ => true)

/-- R2: every record is within its ranges; R162: so are every port's margin and window. -/
abbrev RangeLaw (s : State) : Prop :=
  (∀ i : Fin 16, ∀ l ∈ s.leaseAt i, l.inRange = true)
    ∧ ∀ p : Port, (s.port p).margin.toNat ≤ Config.maxMargin ∧ (s.port p).window.toNat ≤ Config.maxMargin

/-- A lease's deadlines lie ahead of the clock by no more than they were set (R20, R48, R70). -/
def State.deadlinesNear (s : State) (l : Lease) : Bool :=
  match l.phase with
  | .waiting (some d) =>
    (match l.waitLimit with
     | some w => decide ((s.remaining d).toNat ≤ w.toNat)
     | none => false)
  | .waiting none => l.waitLimit.isNone
  | .active h => decide ((s.remaining h.expiry).toNat ≤ l.term.toNat)
  | .yielding h d =>
    decide ((s.remaining h.expiry).toNat ≤ l.term.toNat)
      && decide ((s.remaining d).toNat ≤ Config.maxMargin)
  | .ended _ _ => true

/-- A line's quarantine deadline lies 0 to 255 ticks ahead (R92). -/
def State.quarantineNear (s : State) (x : Line) : Bool :=
  match x.occ with
  | .quarantine d => decide ((s.remaining d).toNat ≤ 255)
  | .free | .bound _ _ => true

/-- R20, R121: no deadline is behind the clock: each is reached on its tick and taken before the next. -/
abbrev DeadlineLaw (s : State) : Prop :=
  (∀ i : Fin 16, ∀ l ∈ s.leaseAt i, s.deadlinesNear l = true)
    ∧ ∀ l : Fin 16, s.quarantineNear (s.line l) = true

/-- A pattern has parameters within R96, and its count `k` is the number of ticks since its origin (R98). -/
def State.pulseFits (s : State) (p : Pulse) : Bool :=
  p.onTime != 0 && decide (2 ≤ p.period.toNat) && decide (p.onTime.toNat < p.period.toNat)
    && (match p.k with
        | none => p.origin == s.clock.count + 1
        | some k => BitVec.ofNat 32 k == s.clock.count - p.origin)

/-- The pattern that runs on a line, if one does. -/
def Line.pattern (x : Line) : Option Pulse :=
  match x.occ with
  | .bound _ (.pulse p) => some p
  | .bound _ (.static _) | .free | .quarantine _ => none

/-- R98: every running pattern fits. -/
abbrev PulseLaw (s : State) : Prop := ∀ l : Fin 16, ∀ p ∈ (s.line l).pattern, s.pulseFits p = true

/-- R176: while the part is held in reset, every slot is FREE at generation 0, the queue is empty, every line is
as R106 gives and OFF, every ATTN is released, every buffer is EMPTY, and the clock block is as R132 gives. -/
abbrev ResetLaw (s : State) : Prop :=
  s.inReset = true →
    (∀ i : Fin 16, s.slot i = Slot.reset) ∧ s.queue = [] ∧ (∀ l : Fin 16, s.line l = Line.reset)
      ∧ s.clock = Clock.reset ∧ s.pointer = .D
      ∧ (∀ p : Port, (s.port p).attn = false ∧ (s.port p).buffer = .empty ∧ (s.port p).clockFlag = false
          ∧ (s.port p).gap = none ∧ (s.port p).transaction.isShifting = false)

/-- R176, R107, R115, R144, R162, R167: while the part is held in reset, every port's settings, mask, mode and
command-detach flag, and every heartbeat input but its accepted level, hold their reset values; and no claim of an
input waits (log entry 20). -/
abbrev ResetSettingsLaw (s : State) : Prop :=
  s.inReset = true →
    (∀ p : Port,
        (s.port p).quota = 4 ∧ (s.port p).ceiling = (if p = .A then 3 else 1) ∧ (s.port p).margin = 0
          ∧ (s.port p).window = 256 ∧ (s.port p).cmdDetach = false ∧ (s.port p).mask = {}
          ∧ (s.port p).maskClock = false ∧ (s.port p).mode = .level)
      ∧ ∀ n : Fin 4,
        (s.input n).enabled = false ∧ (s.input n).edge = .rising ∧ (s.input n).debounce = 3
          ∧ (s.input n).stable = 0 ∧ (s.input n).seeding = false ∧ (s.input n).claims = 0

/-- R37, R39, R41: between events no waiter is order-eligible with every line of its set FREE. -/
abbrev GrantLaw (s : State) : Prop :=
  ∀ w : Fin 16, s.waitingAt w = true → s.orderEligible w = true → s.allFree (s.linesAt w) = false

/-- All the laws of the spec's state. -/
structure Lawful (s : State) : Prop where
  binding   : BindingLaw s
  queue     : QueueLaw s
  self      : SelfLaw s
  quota     : QuotaLaw s
  flags     : FlagLaw s
  drive     : DriveLaw s
  attention : AttentionLaw s
  detached  : DetachedLaw s
  privilege : PrivilegeLaw s
  yields    : YieldLaw s
  grants    : GrantLaw s
  clock     : ClockLaw s
  heartbeat : HeartbeatLaw s
  range     : RangeLaw s
  deadline  : DeadlineLaw s
  pulse     : PulseLaw s
  reset     : ResetLaw s
  settings  : ResetSettingsLaw s

/-! ## What an event leaves alone (R11 to R16, R38, R68) -/

/-- What the scan and the evaluation of an event may make of a lease that the event is not about (R11): a
waiter may be granted; an ACTIVE lease may start a yield, and under a yield window of 0 ends PREEMPTED (R76); a
YIELDING lease keeps its deadline or is withdrawn (R72, R74); an ENDED lease stands. -/
def State.moved (s : State) (a b : Lease) : Bool :=
  let window := (s.port a.holder).window
  b == a
    || (match a.phase with
        | .waiting _ => b == a.grant s.clock.count (s.port a.holder).margin Notices.grantedOnly
        | .active _ =>
          if window == 0 then b == a.finish .preempted else b == a.startYield (s.ahead window)
        | .yielding _ _ => b == a.withdraw
        | .ended _ _ => false)

/-- Slot `j` after an event that is not about it: its generation stands, and its lease is as `State.moved`
gives. -/
def State.slotMoved (s t : State) (j : Fin 16) : Bool :=
  (t.slot j).gen == (s.slot j).gen
    && (match s.leaseAt j, t.leaseAt j with
        | none, none => true
        | some a, some b => s.moved a b
        | none, some _ => false
        | some _, none => false)

/-- Line `l` stands as `x` after an event, or `x` is FREE and the event's scan bound it to a former waiter,
with its drive copied (R89). -/
def State.leftLine (s t : State) (l : Fin 16) (x : Line) : Bool :=
  t.line l == x
    || (x.isFree
        && (match (t.line l).boundSlot with
            | some w => s.waitingAt w && t.line l == x.bind w
            | none => false))

/-- Slot `j` ended PREEMPTED within the event. -/
def State.preemptedIn (s t : State) (j : Fin 16) : Bool :=
  match s.leaseAt j, t.leaseAt j with
  | some a, some b => a.live && b.cause == some .preempted
  | _, _ => false

/-- Line `l` after an event that is not about it: a FREE line may be granted, a line in QUARANTINE stands,
and a BOUND line stands unless its lease ended PREEMPTED within the event. -/
def State.lineMoved (s t : State) (l : Fin 16) : Bool :=
  match (s.line l).boundSlot with
  | none => s.leftLine t l (s.line l)
  | some j =>
    t.line l == s.line l
      || (s.preemptedIn t j && s.leftLine t l ((s.line l).toFault s.clock.count))

/-- A port's settings, mask, mode, CLOCK flag, attach state and transaction stand. -/
def PortState.steady (x y : PortState) : Bool := { y with buffer := x.buffer, gap := x.gap, attn := x.attn } == x

/-- What lies outside the table, the lines and the ports stands. -/
abbrev Aside (s t : State) : Prop :=
  t.clock = s.clock ∧ t.inputs = s.inputs ∧ t.inReset = s.inReset ∧ t.choices = s.choices
    ∧ t.pending = s.pending

/-- No request was taken: every buffer and the round-robin pointer stand. -/
abbrev Unanswered (s t : State) : Prop :=
  t.pointer = s.pointer ∧ ∀ q : Port, (t.port q).buffer = (s.port q).buffer

/-- The request of port `p` was answered, and no other buffer changed (R152). -/
abbrev Answered (s t : State) (p : Port) (c : Command) (st : Status) (data : List Byte) : Prop :=
  t.pointer = p ∧ (t.port p).buffer = .ready (Response.make c.code { status := st, data := data })
    ∧ ∀ q : Port, q ≠ p → (t.port q).buffer = (s.port q).buffer

/-- Every port is steady. -/
abbrev PortsSteady (s t : State) : Prop := ∀ q : Port, (s.port q).steady (t.port q) = true

/-- Line `l` after an event by which the leases of the slots `gone` stopped holding, voluntarily or not (R90,
R91): a line bound to a named slot was unbound, and may have been granted by the scan that followed. -/
def State.lineAfter (s t : State) (gone : Fin 16 → Bool) (voluntary : Bool) (l : Fin 16) : Bool :=
  match (s.line l).boundSlot with
  | some j =>
    if gone j then
      s.leftLine t l (if voluntary then (s.line l).toRest else (s.line l).toFault s.clock.count)
    else s.lineMoved t l
  | none => s.lineMoved t l

/-- What the engine settles by, beside the table, the queue and the lines, stands: the clock, and every port's
margin and window. -/
abbrev SettlesAlike (s u : State) : Prop :=
  u.clock = s.clock ∧ ∀ q : Port, (u.port q).margin = (s.port q).margin ∧ (u.port q).window = (s.port q).window

/-- `u` is `s` with the lease `l` placed in slot `i`, between the waiters `ahead` and `behind` (R32, R35). -/
abbrev PlacedAt (s u : State) (i : Fin 16) (l : Lease) (ahead behind : List (Fin 16)) : Prop :=
  (∀ j : Fin 16, u.slot j = if j = i then { s.slot i with lease := some l } else s.slot j)
    ∧ (∀ m : Fin 16, u.line m = s.line m) ∧ u.queue = ahead ++ i :: behind ∧ SettlesAlike s u

/-- `u` is `s` with line `m` alone gone to FREE at its rest drive (R92). -/
abbrev RestedAt (s u : State) (m : Fin 16) : Prop :=
  (∀ j : Fin 16, u.slot j = s.slot j) ∧ (∀ k : Fin 16, u.line k = if k = m then (s.line m).toRest else s.line k)
    ∧ u.queue = s.queue ∧ SettlesAlike s u

/-- `u` is `s` with the leases of the slots `gone` taken out of the queue and off their lines, voluntarily or not
(R12, R13, R36, R90, R91), those slots as `t` has them, and all that the engine settles by as it stood. -/
abbrev Vacated (s t u : State) (gone : Fin 16 → Bool) (voluntary : Bool) : Prop :=
  (∀ j : Fin 16, u.slot j = if gone j then t.slot j else s.slot j)
    ∧ (∀ l : Fin 16, u.line l =
        match (s.line l).boundSlot with
        | some j =>
          if gone j then (if voluntary then (s.line l).toRest else (s.line l).toFault s.clock.count)
          else s.line l
        | none => s.line l)
    ∧ u.queue = (s.queue.filter fun i => !gone i) ∧ SettlesAlike s u

/-- The table, the queue and the lines of `t` are what the grant scan, where there is one, and the evaluation of
yields make of `u` (R38, R41, R68). -/
abbrev SettledFrom (u t : State) (scan : Bool) : Prop :=
  (∀ j : Fin 16, t.slot j = (u.settle scan).1.slot j) ∧ t.queue = (u.settle scan).1.queue
    ∧ ∀ l : Fin 16, t.line l = (u.settle scan).1.line l

/-- The table and the lines after an event by which the leases of the slots `gone` stopped holding and
waiting, with the scan and evaluation that followed (R38, R68): the slots not named are as `State.moved`
gives, the lines as `State.lineAfter` gives, the waiters that remain keep their order (R36), and all of them are
what the scan and the evaluation make of the state that the leases left. -/
abbrev EventFrame (s t : State) (gone : Fin 16 → Bool) (voluntary : Bool) : Prop :=
  (∀ j : Fin 16, gone j = false → s.slotMoved t j = true)
    ∧ (∀ l : Fin 16, s.lineAfter t gone voluntary l = true)
    ∧ t.queue.Sublist (s.queue.filter fun i => !gone i)
    ∧ ∃ u : State, Vacated s t u gone voluntary ∧ SettledFrom u t (allSlots.any gone)

/-- The table and the lines stand as they stood. -/
abbrev TableStands (s t : State) : Prop :=
  (∀ i : Fin 16, t.slot i = s.slot i) ∧ t.queue = s.queue ∧ ∀ l : Fin 16, t.line l = s.line l

/-! ## Handles and checks in the statements' terms -/

/-- The handle of slot `i` as it stands names the lease `l` (R8). -/
abbrev Current (s : State) (h : Handle) (i : Fin 16) (l : Lease) : Prop :=
  h.slot.toNat = i.val ∧ s.leaseAt i = some l ∧ (s.slot i).gen = h.gen

/-- The handle that a request names, where every argument that needs no record is in range but the slot number
(R9, R49, R96, R136). -/
def Request.handle : Request → Option Handle
  | .renew h newTerm => if newTerm = 0 ∨ 8 ≤ newTerm.toNat then some h else none
  | .release h | .cancel h | .query h | .revoke h => some h
  | .drive h set kind _ onTime period =>
    if set ≠ 0
        ∧ (kind.toNat ≤ 2
          ∨ ((kind = 3 ∨ kind = 4) ∧ onTime ≠ 0 ∧ 2 ≤ period.toNat ∧ onTime.toNat < period.toNat)) then
      some h
    else none
  | .ack target gen kinds =>
    if target ≠ 0xFF ∧ kinds ≠ 0 ∧ kinds.toNat < 32 then some { slot := target, gen := gen } else none
  | .acquire _ | .list | .mask _ _ | .time | .lines | .status | .setLine _ _ _ _ _ _
  | .setPort _ _ _ _ _ _ | .setHeartbeat _ _ _ _ _ | .setClock _ _ _ _ | .resume | .detach _ | .attach _
  | .peek _ | .softReset => none

/-- A command that names a handle is answered STATE in this state of the lease (table after R16). -/
def Request.stateRefused (r : Request) (st : LeaseState) : Bool :=
  match r, st with
  | .renew _ _, .waiting | .renew _ _, .ended => true
  | .release _, .waiting | .release _, .ended => true
  | .cancel _, .active | .cancel _, .yielding | .cancel _, .ended => true
  | .drive _ _ _ _ _ _, .waiting | .drive _ _ _ _ _ _, .ended => true
  | .revoke _, .ended => true
  | _, _ => false

/-- The arguments of an ACQUIRE are out of range (R25). -/
abbrev AcquireOutOfRange (a : AcquireArgs) : Prop :=
  a.lines = 0 ∨ a.term.toNat < 8 ∨ 3 < a.level.toNat ∨ (a.mode ≠ 1 ∧ a.mode ≠ 2)
    ∨ (a.options.getLsbD 1 = true ∧ (a.mode = 1 ∨ a.waitLimit = 0))
    ∨ (a.options.getLsbD 3 = true ∧ a.cap = 0) ∨ (a.options.getLsbD 2 = true ∧ 3 < a.source.toNat)

/-- Some line of the set has an access set that excludes the port (R26). -/
abbrev SomeLineClosed (s : State) (p : Port) (lines : LineSet) : Prop :=
  ∃ l : Fin 16, lines.getLsbD l.val = true ∧ (s.line l).access.getLsbD (portBit p) = false

/-- Slot `i` holds a live lease of the port that intersects the set (R27; log entry 32 for the ENDED ones). -/
abbrev SelfAt (s : State) (p : Port) (lines : LineSet) (i : Fin 16) : Prop :=
  ∃ l ∈ s.leaseAt i, l.holder = p ∧ l.isEnded = false ∧ l.lines &&& lines ≠ 0

/-- An ACQUIRE passes the first six checks of R24. -/
abbrev AcquirePasses (s : State) (p : Port) (a : AcquireArgs) : Prop :=
  ¬AcquireOutOfRange a ∧ a.level.toNat ≤ (s.port p).ceiling.val ∧ ¬SomeLineClosed s p a.lines
    ∧ (∀ i : Fin 16, ¬SelfAt s p a.lines i) ∧ s.slotUse p < (s.port p).quota
    ∧ ∃ i : Fin 16, s.leaseAt i = none

/-- Slot `i` is the lowest-numbered FREE slot (R5). -/
abbrev LowestFree (s : State) (i : Fin 16) : Prop :=
  s.leaseAt i = none ∧ ∀ j : Fin 16, j < i → s.leaseAt j ≠ none

/-- Some waiter of the same or a higher level intersects the set (R29). -/
abbrev OrderBlocked (s : State) (lines : LineSet) (level : Nat) : Prop :=
  ∃ w ∈ s.queue, level ≤ s.levelAt w ∧ s.linesAt w &&& lines ≠ 0

/-- Some line of the set is bound or in quarantine (R29). -/
abbrev LineBlocked (s : State) (lines : LineSet) : Prop :=
  ∃ l : Fin 16, lines.getLsbD l.val = true ∧ (s.line l).isFree = false

end Sys2Proof.Machine
end

