-- ==== Sys2Proof/Certificates/Slice0/Obligations.lean ====
section
/-! DEFINITION. The statements for the provers: what each command of the part does, and the laws that every step keeps. -/

open Sys2Proof Sys2Proof.Machine

/-! ## The step and the commands as a whole -/

/-- With a command at the front of the queue, a step is that command run on the state with the queue's rest. -/
def Obligations.StepRunsFrontCommand : Prop :=
  ∀ (c : Instr) (rest : List Instr) (s : State), s.pending = c :: rest →
    step s = exec c { s with pending := rest }

/-- Every command is taken, in every state of the part: none faults and none is refused. It leaves the queue
of waiting commands alone (the queue is the model's own, and that DEVICE_RESET too keeps it is THE MODEL'S CHOICE,
log entries 13 and 26), and only DEVICE_RESET takes a running part into reset (R176). -/
def Obligations.EveryCommandIsTaken : Prop :=
  ∀ (c : Instr) (s : State), ∃ t, exec c s = .next t ∧ t.pending = s.pending
    ∧ (s.inReset = false → t.inReset = true → c = .deviceReset)
    ∧ (s.inReset = true → t.inReset = false → ∃ hb pen, c = .resetRelease hb pen)

/-- THE MODEL'S CHOICE (log entries 4 and 5). With no command waiting, the part takes one of the events that
stand open, whichever the free choice names, and with none open a period of its local oscillator passes: the
silence count rises to at most 256 (R122), running gaps count it (R142), a tick in progress counts it where the
local oscillator is the tick's source and stands in REFERENCE (R116, R118, R125), and everything else, the
lease clock among it, stands. -/
def Obligations.IdlePartActsByItself : Prop :=
  ∀ s : State, s.pending = [] →
    (s.openEvents ≠ [] → ∃ c ∈ s.openEvents, ∃ k : Nat, step s = exec c { s with choices := k })
    ∧ (s.openEvents = [] → s.inReset = false → ∃ t, step s = .next t ∧ TableStands s t
        ∧ t.clock =
            { s.clock with
              silence := min (s.clock.silence + 1) 256
              tick :=
                if s.clock.state = .start
                    ∨ ((s.clock.state = .fallback ∨ s.clock.state = .ready) ∧ s.clock.policy = .continue) then
                  s.clock.tick.map fun k => { k with counted := min (k.counted + 1) k.length }
                else s.clock.tick }
        ∧ t.inputs = s.inputs ∧ t.pointer = s.pointer ∧ t.choices = s.choices
        ∧ t.inReset = false ∧ t.pending = []
        ∧ ∀ q : Port, t.port q = { s.port q with gap := (s.port q).gap.map fun n => min (n + 1) 1024 })
    ∧ (s.inReset = true → step s = .next s)

/-- THE MODEL'S CHOICE of the step that passes a period (log entry 5), with R116 and R118: where the local
oscillator is the tick's source, a local tick that has just begun takes 1000 periods. With nothing else to do (no
command, no event open, no gap running, the reference LOST) the lease clock stands through 1000 steps, and the
next step makes the tick and begins another. -/
def Obligations.LocalTickTakesThousandPeriods : Prop :=
  ∀ s : State, s.inReset = false → s.pending = [] → s.openEvents = [] → (∀ q : Port, (s.port q).gap = none) →
    s.clock.present = false → s.clock.silence ≤ 256 →
    s.clock.state = .start ∨ (s.clock.state = .fallback ∧ s.clock.policy = .continue) →
    s.clock.tick = some { counted := 0, length := 1000 } →
    (∀ k : Nat, k ≤ 1000 → ∃ t : State, Sys2Proof.core.run k s = .next t ∧ TableStands s t
        ∧ t.clock =
            { s.clock with
              silence := min (s.clock.silence + k) 256
              tick := some { counted := k, length := 1000 } })
    ∧ ∃ t u : State, Sys2Proof.core.run 1000 s = .next t ∧ step t = .next u
        ∧ u.clock.count = s.clock.count + 1 ∧ u.clock.tick = some { counted := 0, length := 1000 }

/-! ## The laws of the state, kept by every step -/

/-- Every law holds in the state of device reset. -/
def Obligations.LawsHoldAtReset : Prop := Lawful State.reset

/-- R87: a line is bound to a lease exactly while that lease is ACTIVE or YIELDING and its set holds the
line. -/
def Obligations.BindingLawKept : Prop :=
  ∀ s t : State, BindingLaw s → step s = .next t → BindingLaw t

/-- R34: the wait queue holds the WAITING leases, each once, from the highest level to the lowest. -/
def Obligations.WaitQueueLawKept : Prop :=
  ∀ s t : State, QueueLaw s → step s = .next t → QueueLaw t

/-- R27 and R17: no two live leases of one port intersect, and no port's slot use exceeds its quota. -/
def Obligations.SelfAndQuotaLawsKept : Prop :=
  (∀ s t : State, SelfLaw s → step s = .next t → SelfLaw t)
    ∧ ∀ s t : State, QuotaLaw s → step s = .next t → QuotaLaw t

/-- R16: in each state of a lease only the flags of that state are pending. -/
def Obligations.NoticeFlagLawKept : Prop :=
  ∀ s t : State, FlagLaw s → step s = .next t → FlagLaw t

/-- R88: every pin drives what its line's occupancy gives. -/
def Obligations.LineDriveLawKept : Prop :=
  ∀ s t : State, DriveLaw s → step s = .next t → DriveLaw t

/-- R141: after every step ATTN_x is what the port's attachment, mode, gap and unmasked notices make it; and
while the part is held in reset it stays as R176 gives it: the table, the lines, the clock block and the ports'
buffers and notices, and with them every port's settings, mask, mode and command-detach flag and every heartbeat
input (R107, R115, R144, R162, R167). That no claim of an input waits in reset is THE MODEL'S CHOICE (log entry
20). -/
def Obligations.AttentionLawKept : Prop :=
  (∀ s t : State, AttentionLaw s → ResetLaw s → step s = .next t → AttentionLaw t ∧ ResetLaw t)
    ∧ ∀ s t : State, ResetSettingsLaw s → step s = .next t → ResetSettingsLaw t

/-- R171: a detached port holds nothing; R161 and R151: no supervisor command is pending on ports B to D. -/
def Obligations.DetachedPortLawKept : Prop :=
  ∀ s t : State, DetachedLaw s → ResetLaw s → PrivilegeLaw s → step s = .next t →
    DetachedLaw t ∧ PrivilegeLaw t

/-- R68, R72: after every step every ACTIVE lease is called on by no justifying waiter, and every YIELDING one
by some. -/
def Obligations.YieldLawKept : Prop :=
  ∀ s t : State, YieldLaw s → step s = .next t → YieldLaw t

/-- R37, R39, R41: after every step no waiter is left that is order-eligible with all its lines FREE. -/
def Obligations.NoWaiterLeftGrantable : Prop :=
  ∀ s t : State, GrantLaw s → BindingLaw s → QueueLaw s → step s = .next t → GrantLaw t

/-- R116 to R118, R122 to R124, R126: the counts of the clock block stay in their ranges and agree with the
clock state. -/
def Obligations.ClockBlockLawKept : Prop :=
  ∀ s t : State, ClockLaw s → ResetLaw s → step s = .next t → ClockLaw t

/-- R20, R121, R2: no step leaves a deadline behind the clock, and every record stays within its ranges. -/
def Obligations.DeadlineLawKept : Prop :=
  ∀ s t : State, DeadlineLaw s → RangeLaw s → step s = .next t → DeadlineLaw t ∧ RangeLaw t

/-- R98: a running pattern's count is the number of ticks since its origin; R107, R108: a stable count never
reaches the debounce length. -/
def Obligations.PatternAndDebounceLawsKept : Prop :=
  (∀ s t : State, PulseLaw s → step s = .next t → PulseLaw t)
    ∧ ∀ s t : State, HeartbeatLaw s → step s = .next t → HeartbeatLaw t

/-- R120: the lease clock stands through every command but TICK, the edge of REFCLK that makes a reference tick,
and DEVICE_RESET. A TICK, or such an edge, leaves it or advances it by one modulo 2^32, and leaves it while the
clock is frozen in FALLBACK or READY under FREEZE; with the clock not frozen and no event of the present tick open,
a TICK advances it; DEVICE_RESET sets it to 0. -/
def Obligations.LeaseClockAdvancesByTicks : Prop :=
  (∀ (c : Instr) (s t : State), exec c s = .next t →
      (c = .deviceReset → t.clock.count = 0)
      ∧ (c ≠ .deviceReset →
          t.clock.count = s.clock.count
          ∨ (((∃ hb, c = .tick hb) ∨ (c = .refclkEdge ∧ s.clock.state = .reference))
              ∧ t.clock.count = s.clock.count + 1
              ∧ ¬((s.clock.state = .fallback ∨ s.clock.state = .ready) ∧ s.clock.policy = .freeze))))
    ∧ ∀ (hb : BitVec 4) (s : State), s.inReset = false → s.eventsOpen = false →
        ¬((s.clock.state = .fallback ∨ s.clock.state = .ready) ∧ s.clock.policy = .freeze) →
        ∃ t, exec (.tick hb) s = .next t ∧ t.clock.count = s.clock.count + 1

/-! ## The scan, the evaluation and the gaps -/

/-- R39, R40: one walk grants exactly the waiters that are order-eligible with every line of their set FREE as
the walk begins. Each becomes ACTIVE with a full term ahead and GRANTED posted, binds its lines at their
present drives and leaves the queue; every other slot stands. -/
def Obligations.ScanGrantsExactly : Prop :=
  ∀ s : State, QueueLaw s → BindingLaw s → ∀ (i : Fin 16),
    (∀ l : Lease, s.leaseAt i = some l → l.isWaiting = true → s.orderEligible i = true →
      s.allFree l.lines = true →
      let margin := (s.port l.holder).margin
      let warned := decide (margin ≠ 0 ∧ l.term.toNat ≤ margin.toNat)
      s.grantScan.slot i =
          { s.slot i with
            lease := some
              { l with
                phase := .active
                  { expiry := s.clock.count + l.term.setWidth 32, count := 0, warned := warned }
                flags := { granted := true, warning := warned } } }
        ∧ i ∉ s.grantScan.queue
        ∧ ∀ m : Fin 16, l.lines.getLsbD m.val = true →
            s.grantScan.line m =
              { s.line m with occ := .bound i (.static (s.line m).current) })
    ∧ (¬(s.waitingAt i = true ∧ s.orderEligible i = true ∧ s.allFree (s.linesAt i) = true) →
        s.grantScan.slot i = s.slot i ∧ (i ∈ s.queue → i ∈ s.grantScan.queue))

/-- R76, R75: a lease that enters YIELDING under a yield window of 0 ends PREEMPTED within the event that started
its yield, keeps its renewal count, and has ENDED alone pending. -/
def Obligations.ZeroWindowPreemptsAtOnce : Prop :=
  ∀ (s : State) (scan : Bool) (j : Fin 16) (l : Lease),
    j ∈ (s.settle scan).2 → s.leaseAt j = some l → (s.port l.holder).window = 0 →
    (s.settle scan).1.leaseAt j =
      some { l with phase := .ended (l.count.getD 0) .preempted, flags := { ended := true } }

/-- R142, R143: a gap begins on a port with none running exactly when, after the event, the port is attached
and in GAP mode and either the event was its accepted ACK and leaves an unmasked notice pending, or it posted
an unmasked notice while ATTN_x was asserted (what an event posted is judged by comparing the flags before and
after it: the model's reading, log entry 11); it begins at 0; no command lengthens or restarts a running gap;
and GAP_END ends it and computes ATTN_x again. -/
def Obligations.GapsBeginAndEnd : Prop :=
  (∀ (c : Instr) (s t : State) (p : Port), exec c s = .next t → (s.port p).gap = none →
      ((t.port p).gap = some 0 ↔
        t.attached p = true ∧ (t.port p).mode = .gap
          ∧ ((c = .ack ∧ (∃ r, s.nextRequest = some (p, r))
                ∧ (∃ resp, (t.port p).buffer = .ready resp ∧ resp.status = .ok)
                ∧ t.unmaskedPending p = true)
              ∨ (s.freshlyPosted t p = true ∧ (s.port p).attn = true)))
      ∧ ((t.port p).gap = none ∨ (t.port p).gap = some 0))
    ∧ (∀ (c : Instr) (s t : State) (p : Port) (n : Nat), exec c s = .next t → (s.port p).gap = some n →
        (t.port p).gap = some n ∨ (t.port p).gap = none)
    ∧ ∀ (s : State) (p : Port) (n : Nat), s.inReset = false → AttentionLaw s → (s.port p).gap = some n →
        exec (.gapEnd p) s =
          .next (s.updPort p fun x =>
            { x with gap := none, attn := s.attached p && s.unmaskedPending p })

/-! ## Transactions and request frames -/

/-- R145, R146: at the falling edge an attached port takes a copy of its buffer, and a detached one starts a
transaction that is ignored in whole; nothing else changes. -/
def Obligations.SelnFallTakesCopy : Prop :=
  ∀ (s : State) (x : Port), (s.port x).transaction = .idle →
    (s.attached x = true → exec (.selnFall x) s =
      .next (s.updPort x fun q => { q with transaction := .shifting (s.port x).buffer }))
    ∧ (s.attached x = false → exec (.selnFall x) s =
      .next (s.updPort x fun q => { q with transaction := .ignored }))

/-- R145, R146, R150: an empty transaction, a read, an ignored transaction, and a request whose copy was
PENDING each leave the buffer, and everything beyond the port, as it stands. -/
def Obligations.TransactionsThatChangeNothing : Prop :=
  ∀ (s : State) (x : Port) (mosi : List Bool),
    ((s.port x).transaction = .ignored → exec (.transactionRelease x mosi) s =
      .next (s.updPort x fun q => { q with transaction := .idle }))
    ∧ ∀ copy : Buffer, (s.port x).transaction = .shifting copy →
        (mosi.length < 8 ∨ (∃ more, mosi = byteBits 0 ++ more) ∨ (∃ r, copy = .pending r)) →
        exec (.transactionRelease x mosi) s =
          .next (s.updPort x fun q => { q with transaction := .idle })

/-- R151: the receiver's five checks, in order, on the complete bytes `code`, then `rest`, of a request
transaction whose copy was not PENDING. A length byte above 24 is answered LENGTH first; bits after the last
complete byte are discarded. The supervisor commands are those of codes 40h to 49h. -/
def Obligations.ReceiverChecksInOrder : Prop :=
  (∀ code : Byte, (∃ c, commandOfCode code = some c ∧ c.supervisor = true) ↔
      0x40 ≤ code.toNat ∧ code.toNat ≤ 0x49)
  ∧ ∀ (s : State) (x : Port) (copy : Buffer) (code : Byte) (rest : List Byte) (extra : List Bool),
    (s.port x).transaction = .shifting copy → copy.request = none → code ≠ 0 → extra.length < 8 →
    let leaves := fun b : Buffer =>
      exec (.transactionRelease x (frameBits (code :: rest) ++ extra)) s =
        .next (s.updPort x fun q => { q with transaction := .idle, buffer := b })
    let answers := fun (st : Status) (data : List Byte) =>
      leaves (.ready (Response.make code { status := st, data := data }))
    (rest = [] → answers .format [0x01])
    ∧ ∀ (n : Byte) (body : List Byte), rest = n :: body →
        (24 < n.toNat → answers .format [0x03])
        ∧ (n.toNat ≤ 24 → body.length ≤ n.toNat → answers .format [0x01])
        ∧ ∀ check : Byte, n.toNat ≤ 24 → body[n.toNat]? = some check →
            let args := body.take n.toNat
            (check ≠ crcOf (code :: n :: args) → answers .format [0x02])
            ∧ (check = crcOf (code :: n :: args) →
                (commandOfCode code = none → answers .unknown [])
                ∧ ∀ c : Command, commandOfCode code = some c →
                    (n.toNat ≠ c.argLength → answers .format [0x03])
                    ∧ (n.toNat = c.argLength → c.supervisor = true → x ≠ .A → answers .privilege [])
                    ∧ (n.toNat = c.argLength → c.supervisor = false ∨ x = .A →
                        ∃ r : Request, r.command = c ∧ r.args = args ∧ leaves (.pending r)))

/-- R148, R152, R156, R157: the frame of any request, clocked in bit by bit on a port that may send it and
followed by anything, leaves that very request PENDING in the buffer, every argument as it was sent. -/
def Obligations.RequestFrameRoundTrip : Prop :=
  ∀ (r : Request) (s : State) (x : Port) (copy : Buffer) (more : List Bool),
    (s.port x).transaction = .shifting copy → copy.request = none →
    (r.command.supervisor = false ∨ x = .A) →
    exec (.transactionRelease x (frameBits r.frame ++ more)) s =
      .next (s.updPort x fun q => { q with transaction := .idle, buffer := .pending r })

/-- R147 to R149: what MISO_x shifts out of a READY copy is AAh, the echo, the status, the data length, the
data and the CRC, and FFh from then on; the CRC closes the frame, so that the check register over the bytes
it covers and itself is 0. -/
def Obligations.ResponseFrameIsClosed : Prop :=
  (∀ (s : State) (x : Port) (e : Byte) (a : Answer),
      (s.port x).transaction = .shifting (.ready (Response.make e a)) →
      let covered := e :: a.status.toByte :: BitVec.ofNat 8 a.data.length :: a.data
      s.misoByte x 0 = some 0xAA
      ∧ (∀ k : Nat, k < covered.length → s.misoByte x (k + 1) = covered[k]?)
      ∧ (∃ crc, s.misoByte x (covered.length + 1) = some crc ∧ crcOf (covered ++ [crc]) = 0)
      ∧ ∀ k : Nat, covered.length + 2 ≤ k → s.misoByte x k = some 0xFF)
    ∧ (∀ (s : State) (x : Port) (k : Nat), (s.port x).transaction = .shifting .empty →
        s.misoByte x k = some (if k = 0 then 0xA0 else 0xFF))
    ∧ ∀ (s : State) (x : Port) (r : Request) (k : Nat), (s.port x).transaction = .shifting (.pending r) →
        s.misoByte x k = some (if k = 0 then 0xA5 else 0xFF)

/-- R145, R147: on MISO_x each byte leaves most significant bit first. From the first bit, valid from the
falling edge of SELN_x, they are the bits of the copy's frame, byte by byte, and 1 from then on; with no
transaction, or an ignored one, MISO_x is at high impedance. -/
def Obligations.MisoBitsLeaveMsbFirst : Prop :=
  ∀ (s : State) (x : Port),
    (∀ copy : Buffer, (s.port x).transaction = .shifting copy → ∀ n : Nat,
        (n < 8 * copy.frame.length → s.misoBit x n = (frameBits copy.frame)[n]?)
        ∧ (8 * copy.frame.length ≤ n → s.misoBit x n = some true))
    ∧ ((s.port x).transaction.isShifting = false → ∀ n : Nat, s.misoBit x n = none)

/-! ## Arbitration -/

/-- R154: the request taken next is that of the first PENDING port counted from the port after the pointer, in
the cyclic order A, B, C, D; none while the part is held in reset. -/
def Obligations.RoundRobinTakesFirstPending : Prop :=
  ∀ (s : State) (p : Port) (r : Request),
    s.nextRequest = some (p, r) ↔
      s.inReset = false ∧ (s.port p).buffer = .pending r
        ∧ ∀ q : Port, (portBit q + 3 - portBit s.pointer) % 4 < (portBit p + 3 - portBit s.pointer) % 4 →
            (s.port q).buffer.request = none

/-- R152, R154: the request that the round robin takes is answered within its event, whatever it is: the
buffer becomes READY with the command's code as echo, and the pointer names the port. -/
def Obligations.EveryRequestIsAnswered : Prop :=
  ∀ (s : State) (p : Port) (r : Request), s.nextRequest = some (p, r) →
    ∃ t resp, exec r.instr s = .next t ∧ t.pointer = p ∧ (t.port p).buffer = .ready resp
      ∧ resp.echo = r.command.code

/-- THE MODEL'S CHOICE (log entry 7). A command whose event does not arise in the state changes nothing: a
request row when another request, or none, is next; a deadline, warning or claim that is not due; the end of
a gap that does not run; a level of PEN_x that is already accepted; an edge of SELN_x that is none; the release
of a part that runs. -/
def Obligations.EventsThatDoNotArise : Prop :=
  (∀ (s : State) (c : Instr) (r : Request), c = r.instr →
      (∀ p r', s.nextRequest = some (p, r') → r'.instr ≠ c) → exec c s = .next s)
    ∧ (∀ (s : State) (i : Fin 16), s.inReset = true ∨ s.expiryDue i = false →
        exec (.expiry i.val) s = .next s)
    ∧ (∀ (s : State) (i : Fin 16), s.inReset = true ∨ s.waitDue i = false →
        exec (.waitDeadline i.val) s = .next s)
    ∧ (∀ (s : State) (i : Fin 16), s.inReset = true ∨ s.yieldDue i = false →
        exec (.yieldDeadline i.val) s = .next s)
    ∧ (∀ (s : State) (i : Fin 16), s.inReset = true ∨ s.warningDue i = false →
        exec (.warningEvent i.val) s = .next s)
    ∧ (∀ (s : State) (l : Fin 16), s.inReset = true ∨ s.quarantineDue l = false →
        exec (.quarantineDeadline l.val) s = .next s)
    ∧ (∀ (s : State) (n : Fin 4), s.inReset = true ∨ (s.input n).claims = 0 →
        exec (.renewalClaim n.val) s = .next s)
    ∧ (∀ (s : State) (x : Port), s.inReset = true ∨ (s.port x).gap = none →
        exec (.gapEnd x) s = .next s)
    ∧ (∀ (s : State) (x : Port) (high : Bool), s.inReset = true ∨ (s.port x).pen = high →
        exec (.penChange x high) s = .next s)
    ∧ (∀ (s : State) (x : Port), (s.port x).transaction ≠ .idle → exec (.selnFall x) s = .next s)
    ∧ (∀ (s : State) (x : Port) (mosi : List Bool), (s.port x).transaction = .idle →
        exec (.transactionRelease x mosi) s = .next s)
    ∧ ∀ (s : State) (hb : BitVec 4) (pen : PortSet), s.inReset = false →
        exec (.resetRelease hb pen) s = .next s

/-! ## ACQUIRE (chapter 2) -/

/-- R24 to R28: the six checks of an ACQUIRE in their order, each with its answer; a refused ACQUIRE changes
nothing but its port's buffer and the pointer. An ENDED lease that is not yet acknowledged gives no SELF (R51 reads
otherwise: log entry 32). -/
def Obligations.AcquireChecksInOrder : Prop :=
  ∀ (s : State) (p : Port) (a : AcquireArgs), s.nextRequest = some (p, .acquire a) →
    YieldLaw s → AttentionLaw s →
    let answers := fun (st : Status) (data : List Byte) =>
      exec .acquire s = .next (s.respond p .acquire { status := st, data := data })
    (AcquireOutOfRange a → answers .range [])
    ∧ (¬AcquireOutOfRange a →
        ((s.port p).ceiling.val < a.level.toNat → answers .level [])
        ∧ (a.level.toNat ≤ (s.port p).ceiling.val →
            (SomeLineClosed s p a.lines → answers .denied [])
            ∧ (¬SomeLineClosed s p a.lines →
                (∀ i : Fin 16, SelfAt s p a.lines i → (∀ j : Fin 16, j < i → ¬SelfAt s p a.lines j) →
                  answers .self [BitVec.ofNat 8 i.val, (s.slot i).gen])
                ∧ ((∀ i : Fin 16, ¬SelfAt s p a.lines i) →
                    ((s.port p).quota ≤ s.slotUse p →
                      answers .quota
                        [BitVec.ofNat 8 (s.port p).quota, BitVec.ofNat 8 (s.slotUse p)])
                    ∧ (s.slotUse p < (s.port p).quota → (∀ i : Fin 16, s.leaseAt i ≠ none) →
                      answers .full [])))))

/-- R29, R31: a TRY that passes the checks and is order-blocked or line-blocked is answered CONFLICT, with
which of the two it was, and changes nothing (which leases the checks count as the port's own: log entry 32). -/
def Obligations.TryBlockedIsConflict : Prop :=
  ∀ (s : State) (p : Port) (a : AcquireArgs), s.nextRequest = some (p, .acquire a) →
    YieldLaw s → AttentionLaw s → AcquirePasses s p a → a.mode = 1 →
    let answers := fun bits : Byte =>
      exec .acquire s = .next (s.respond p .acquire { status := .conflict, data := [bits] })
    (OrderBlocked s a.lines a.level.toNat → ¬LineBlocked s a.lines → answers 0x01)
    ∧ (¬OrderBlocked s a.lines a.level.toNat → LineBlocked s a.lines → answers 0x02)
    ∧ (OrderBlocked s a.lines a.level.toNat → LineBlocked s a.lines → answers 0x03)

/-- R5, R6, R14, R29, R30, R33: an ACQUIRE that passes the checks and is blocked by neither a waiter nor a
line is granted at once in the lowest-numbered FREE slot. The record, the binding at the lines' present
drives and the answer are as given, no GRANTED is posted, and nothing else changes in the table but that a
YIELDING lease may be withdrawn (which leases the checks count as the port's own: log entry 32). -/
def Obligations.AcquireGrantsAtOnce : Prop :=
  ∀ (s : State) (p : Port) (a : AcquireArgs) (level : Fin 4) (i : Fin 16),
    s.nextRequest = some (p, .acquire a) → BindingLaw s → QueueLaw s → YieldLaw s →
    AcquirePasses s p a → a.level.toNat = level.val → LowestFree s i →
    ¬OrderBlocked s a.lines level.val → ¬LineBlocked s a.lines →
    let margin := (s.port p).margin
    let warned := decide (margin ≠ 0 ∧ a.term.toNat ≤ margin.toNat)
    ∃ t, exec .acquire s = .next t
      ∧ t.slot i =
          { gen := (s.slot i).gen
            lease := some
              { holder := p, tag := a.tag, lines := a.lines, level := level,
                yieldable := a.options.getLsbD 0, term := a.term,
                waitLimit := if a.options.getLsbD 1 then some a.waitLimit else none,
                source := if a.options.getLsbD 2 then some (Fin.ofNat 4 a.source.toNat) else none,
                cap := if a.options.getLsbD 3 then some a.cap else none,
                flags := { warning := warned },
                phase := .active
                  { expiry := s.clock.count + a.term.setWidth 32, count := 0, warned := warned } } }
      ∧ (∀ j : Fin 16, j ≠ i →
          t.slot j = s.slot j
          ∨ ∃ l h d, s.leaseAt j = some l ∧ l.phase = .yielding h d
              ∧ t.slot j =
                  { s.slot j with
                    lease := some
                      { l with
                        phase := .active h, flags := { l.flags with yield := false, withdrawn := true } } })
      ∧ (∀ m : Fin 16, t.line m =
          if a.lines.getLsbD m.val then { s.line m with occ := .bound i (.static (s.line m).current) }
          else s.line m)
      ∧ t.queue = s.queue ∧ Aside s t ∧ PortsSteady s t
      ∧ Answered s t p .acquire .ok
          ([BitVec.ofNat 8 i.val, (s.slot i).gen, 0x02] ++ bytes16 a.term ++ [0x00, 0x00])

/-- R5, R6, R32, R33, R35, R38, R41, R76: a WAIT that passes the checks and is blocked takes the lowest-numbered
FREE slot, behind the waiters of its own or a higher level and ahead of those of a lower one, and is answered QUEUED.
The table, the queue and the lines are what the scan and the evaluation make of that placement: the new lease
stands WAITING, or, where a blocker ended under a yield window of 0, it may stand ACTIVE with GRANTED pending. The
answer tells its state, its term or its position, and whether some lease that blocks it entered YIELDING, ended
since or not (which leases that byte counts is the model's reading, log entry 22, and which leases the checks count
as the port's own, log entry 32). While no yield window is 0, it
stands WAITING and no line changes. The other slots are as `State.slotMoved` gives (when a withdrawal is made is the
model's reading, log entry 29). -/
def Obligations.AcquireWaitIsQueued : Prop :=
  ∀ (s : State) (p : Port) (a : AcquireArgs) (level : Fin 4) (i : Fin 16),
    s.nextRequest = some (p, .acquire a) → BindingLaw s → QueueLaw s → YieldLaw s → GrantLaw s →
    AcquirePasses s p a → a.level.toNat = level.val → LowestFree s i → a.mode = 2 →
    OrderBlocked s a.lines level.val ∨ LineBlocked s a.lines →
    let limit := if a.options.getLsbD 1 then some a.waitLimit else none
    let placed : Lease :=
      { holder := p, tag := a.tag, lines := a.lines, level := level,
        yieldable := a.options.getLsbD 0, term := a.term, waitLimit := limit,
        source := if a.options.getLsbD 2 then some (Fin.ofNat 4 a.source.toNat) else none,
        cap := if a.options.getLsbD 3 then some a.cap else none,
        flags := {}, phase := .waiting (limit.map fun w => s.clock.count + w.setWidth 32) }
    let margin := (s.port p).margin
    let warned := decide (margin ≠ 0 ∧ a.term.toNat ≤ margin.toNat)
    let granted : Lease :=
      { placed with
        phase := .active
          { expiry := s.clock.count + a.term.setWidth 32, count := 0, warned := warned }
        flags := { granted := true, warning := warned } }
    ∃ (t u : State) (ahead behind : List (Fin 16)) (started : Bool),
      exec .acquire s = .next t
      ∧ s.queue = ahead ++ behind
      ∧ (∀ j ∈ ahead, level.val ≤ s.levelAt j) ∧ (∀ j ∈ behind, s.levelAt j < level.val)
      ∧ PlacedAt s u i placed ahead behind ∧ SettledFrom u t true
      ∧ (started = true ↔ ∃ j ∈ (u.settle true).2, t.linesAt j &&& a.lines ≠ 0)
      ∧ (t.slot i).gen = (s.slot i).gen
      ∧ (let answers := fun rest : List Byte =>
            Answered s t p .acquire .queued
              ([BitVec.ofNat 8 i.val, (s.slot i).gen] ++ rest ++ [if started then 0x01 else 0x00])
         (t.leaseAt i = some placed ∧ answers [0x01, 0x00, 0x00, BitVec.ofNat 8 (t.queue.idxOf i + 1)])
          ∨ (t.leaseAt i = some granted ∧ answers ([0x02] ++ bytes16 a.term ++ [0x00])))
      ∧ (∀ j : Fin 16, j ≠ i → s.slotMoved t j = true) ∧ Aside s t ∧ PortsSteady s t
      ∧ ((∀ q : Port, (s.port q).window ≠ 0) →
          t.leaseAt i = some placed ∧ (∀ m : Fin 16, t.line m = s.line m) ∧ t.queue = ahead ++ i :: behind
          ∧ t.queue.idxOf i = ahead.length
          ∧ (started = true ↔
              ∃ j : Fin 16, s.activeAt j = true ∧ t.yieldingAt j = true ∧ s.linesAt j &&& a.lines ≠ 0))

/-! ## Commands that name a handle (R9, R16) -/

/-- R9: a request that names a handle is answered RANGE for a slot number above 15, then STALE for a FREE slot
or a differing generation, then, but for REVOKE, NOT_HOLDER for another port's lease; and it changes nothing. -/
def Obligations.HandleChecksInOrder : Prop :=
  ∀ (s : State) (p : Port) (r : Request) (h : Handle), s.nextRequest = some (p, r) →
    r.handle = some h → YieldLaw s → AttentionLaw s →
    let answers := fun st : Status =>
      exec r.instr s = .next (s.respond p r.command { status := st, data := [] })
    (15 < h.slot.toNat → answers .range)
    ∧ ∀ i : Fin 16, h.slot.toNat = i.val →
        (s.leaseAt i = none ∨ (s.slot i).gen ≠ h.gen → answers .stale)
        ∧ ∀ l : Lease, Current s h i l → l.holder ≠ p → r.command ≠ .revoke → answers .notHolder

/-- R49, R96, R136: the argument ranges of check 1 that no record is needed for. A RENEW with a new term of 1 to 7;
a DRIVE that names no line, a kind above 4, or a pulse whose on time is 0, whose period is below 2 or whose on
time is not below its period; and an ACK that names no kind, a bit beyond the six kinds, CLOCK for a lease, or for
the port anything but CLOCK alone: each is answered RANGE, whatever its handle, and changes nothing. -/
def Obligations.ArgumentsOutOfRangeAreRefused : Prop :=
  ∀ (s : State) (p : Port), YieldLaw s → AttentionLaw s →
    let refused := fun r : Request => s.nextRequest = some (p, r) →
      exec r.instr s = .next (s.respond p r.command { status := .range, data := [] })
    (∀ (h : Handle) (newTerm : Ticks), newTerm ≠ 0 → newTerm.toNat < 8 → refused (.renew h newTerm))
    ∧ (∀ (h : Handle) (set : LineSet) (kind delay onTime period : Byte),
        set = 0 ∨ 4 < kind.toNat
          ∨ ((kind = 3 ∨ kind = 4) ∧ (onTime = 0 ∨ period.toNat < 2 ∨ period.toNat ≤ onTime.toNat)) →
        refused (.drive h set kind delay onTime period))
    ∧ ∀ target gen kinds : Byte,
        kinds = 0 ∨ 64 ≤ kinds.toNat ∨ (target ≠ 0xFF ∧ kinds.getLsbD 5 = true)
          ∨ (target = 0xFF ∧ kinds ≠ 0x20) →
        refused (.ack target gen kinds)

/-- R16, R49, R51, R58, R44, R96, R62, R166: a command that its lease's state does not take is answered STATE,
with the state and the end cause, a REVOKE whatever port holds the lease; a RENEW of a YIELDING lease is answered
YIELDING, and one at the cap LIMIT, each with its data; and nothing changes. -/
def Obligations.StateRefusalsChangeNothing : Prop :=
  ∀ (s : State) (p : Port) (r : Request) (h : Handle) (i : Fin 16) (l : Lease),
    s.nextRequest = some (p, r) → r.handle = some h → Current s h i l →
    l.holder = p ∨ r.command = .revoke →
    YieldLaw s → AttentionLaw s →
    let answers := fun (st : Status) (data : List Byte) =>
      exec r.instr s = .next (s.respond p r.command { status := st, data := data })
    (r.stateRefused l.state = true → answers .state [l.state.toByte, causeByte l.cause])
    ∧ (r.command = .renew → ∀ g d, l.phase = .yielding g d →
        answers .yielding
          (bytes16 ((g.expiry - s.clock.count).setWidth 16) ++ bytes16 ((d - s.clock.count).setWidth 16)))
    ∧ (r.command = .renew → ∀ g c, l.phase = .active g → l.cap = some c → c.toNat ≤ g.count.toNat →
        answers .limit (g.count :: bytes16 ((g.expiry - s.clock.count).setWidth 16)))

/-- R50, R53, R55: a RENEW of an ACTIVE lease below its cap sets the term, the expiry a full term ahead, the
count, warned this term and WARNING as given, and changes nothing else in the part but its answer. The last byte
of the answer says whether the event posted WARNING as the model reads it (log entry 24). -/
def Obligations.RenewStartsFreshTerm : Prop :=
  ∀ (s : State) (p : Port) (h : Handle) (newTerm : Ticks) (i : Fin 16) (l : Lease) (g : Holding),
    s.nextRequest = some (p, .renew h newTerm) → newTerm = 0 ∨ 8 ≤ newTerm.toNat → Current s h i l →
    l.holder = p → l.phase = .active g → (∀ c, l.cap = some c → g.count.toNat < c.toNat) → YieldLaw s →
    let term := if newTerm = 0 then l.term else newTerm
    let count := if g.count = 255 then 255 else g.count + 1
    let margin := (s.port p).margin
    let warned := decide (margin ≠ 0 ∧ term.toNat ≤ margin.toNat)
    ∃ t, exec .renew s = .next t
      ∧ t.slot i =
          { s.slot i with
            lease := some
              { l with
                term := term
                phase := .active
                  { expiry := s.clock.count + term.setWidth 32, count := count, warned := warned }
                flags := { l.flags with warning := warned } } }
      ∧ (∀ j : Fin 16, j ≠ i → t.slot j = s.slot j) ∧ (∀ m : Fin 16, t.line m = s.line m)
      ∧ t.queue = s.queue ∧ Aside s t ∧ PortsSteady s t
      ∧ Answered s t p .renew .ok
          ([h.slot, h.gen] ++ bytes16 term ++ bytes16 term
            ++ [count, match l.cap with
                | none => 0xFF
                | some c => c - count, if warned then 0x01 else 0x00])

/-- R52, R53, R55, R110: a renewal claim renews, from the one clock value and each with its own term, every
ACTIVE lease that names the input and is below its cap, whatever its holder; it passes every other lease
over; and it is taken once. That it does so while the clock is frozen too is the model's reading (log entry 34). -/
def Obligations.ClaimRenewsEveryMatchingLease : Prop :=
  ∀ (s : State) (n : Fin 4), s.inReset = false → 0 < (s.input n).claims → YieldLaw s →
    ∃ t, exec (.renewalClaim n.val) s = .next t
      ∧ (∀ i : Fin 16,
          (s.leaseAt i = none → t.slot i = s.slot i)
          ∧ ∀ l : Lease, s.leaseAt i = some l →
              (∀ g : Holding, l.phase = .active g → l.source = some n →
                (∀ c, l.cap = some c → g.count.toNat < c.toNat) →
                let margin := (s.port l.holder).margin
                let warned := decide (margin ≠ 0 ∧ l.term.toNat ≤ margin.toNat)
                t.slot i =
                  { s.slot i with
                    lease := some
                      { l with
                        phase := .active
                          { expiry := s.clock.count + l.term.setWidth 32
                            count := if g.count = 255 then 255 else g.count + 1
                            warned := warned }
                        flags := { l.flags with warning := warned } } })
              ∧ (¬(l.state = .active ∧ l.source = some n
                    ∧ ∀ c k, l.cap = some c → l.count = some k → k.toNat < c.toNat) →
                  t.slot i = s.slot i))
      ∧ (∀ m : Fin 16, t.line m = s.line m) ∧ t.queue = s.queue ∧ Unanswered s t ∧ PortsSteady s t
      ∧ t.clock = s.clock ∧ (t.input n).claims = (s.input n).claims - 1
      ∧ (∀ m : Fin 4, t.input m = { s.input m with claims := (t.input m).claims })
      ∧ ∀ m : Fin 4, m ≠ n → t.input m = s.input m

/-- R7, R12, R44, R58, R77: a RELEASE of an ACTIVE or YIELDING lease, and a CANCEL of a WAITING one, return
the slot to FREE at the next generation; the lines of a released lease go to their rest drives without
quarantine; the scan and the evaluation follow in the event (which of its evaluations withdraws is the model's
reading, log entry 29); the answer is OK with no data. -/
def Obligations.ReleaseAndCancelFreeSlot : Prop :=
  ∀ (s : State) (p : Port) (r : Request) (h : Handle) (i : Fin 16) (l : Lease),
    s.nextRequest = some (p, r) → Current s h i l → l.holder = p →
    (r = .release h ∧ l.holding ≠ none) ∨ (r = .cancel h ∧ l.isWaiting = true) →
    BindingLaw s → QueueLaw s →
    ∃ t, exec r.instr s = .next t ∧ t.slot i = { gen := (s.slot i).gen + 1, lease := none }
      ∧ EventFrame s t (fun j => j == i) true ∧ Aside s t ∧ PortsSteady s t
      ∧ Answered s t p r.command .ok []

/-- R136 to R138: an ACK of a lease clears the named flags, and frees the slot when it names ENDED on an ENDED
lease; an ACK of the port clears its CLOCK flag; each answers as given, and changes no other record, line or
setting. -/
def Obligations.AckClearsNamedFlags : Prop :=
  (∀ (s : State) (p : Port) (target gen kinds : Byte) (i : Fin 16) (l : Lease),
      s.nextRequest = some (p, .ack target gen kinds) → kinds ≠ 0 → kinds.toNat < 32 →
      Current s { slot := target, gen := gen } i l → l.holder = p →
      BindingLaw s → QueueLaw s → YieldLaw s →
      ∃ t, exec .ack s = .next t
        ∧ (∀ j : Fin 16, j ≠ i → t.slot j = s.slot j) ∧ (∀ m : Fin 16, t.line m = s.line m)
        ∧ t.queue = s.queue ∧ Aside s t ∧ PortsSteady s t
        ∧ (kinds.getLsbD 4 = true → l.isEnded = true →
            t.slot i = { gen := (s.slot i).gen + 1, lease := none }
            ∧ Answered s t p .ack .ok [0x00, 0x00])
        ∧ (kinds.getLsbD 4 = false ∨ l.isEnded = false →
            let left : Notices :=
              { granted := l.flags.granted && !kinds.getLsbD 0
                warning := l.flags.warning && !kinds.getLsbD 1
                yield := l.flags.yield && !kinds.getLsbD 2
                withdrawn := l.flags.withdrawn && !kinds.getLsbD 3
                ended := l.flags.ended && !kinds.getLsbD 4 }
            t.slot i = { s.slot i with lease := some { l with flags := left } }
            ∧ Answered s t p .ack .ok [l.state.toByte, left.toByte]))
    ∧ ∀ (s : State) (p : Port) (gen : Byte), s.nextRequest = some (p, .ack 0xFF gen 0x20) → YieldLaw s →
        ∃ t, exec .ack s = .next t ∧ TableStands s t ∧ Aside s t ∧ (t.port p).clockFlag = false
          ∧ (∀ q : Port, q ≠ p → (s.port q).steady (t.port q) = true)
          ∧ PortState.steady { s.port p with clockFlag := false } (t.port p) = true
          ∧ Answered s t p .ack .ok [s.clock.state.toByte]

/-- R13, R61, R62, R166: a REVOKE ends a lease of any port that is not ENDED, with cause REVOKED and ENDED
alone pending; its lines go to quarantine, or straight to FREE for a length of 0; the scan and the evaluation
follow (log entry 29 for the withdrawals); the answer names the holder and the state before. -/
def Obligations.RevokeEndsAnyLease : Prop :=
  ∀ (s : State) (p : Port) (h : Handle) (i : Fin 16) (l : Lease),
    s.nextRequest = some (p, .revoke h) → Current s h i l → l.isEnded = false → BindingLaw s → QueueLaw s →
    ∃ t, exec .revoke s = .next t
      ∧ t.slot i =
          { s.slot i with
            lease := some
              { l with phase := .ended (l.count.getD 0) .revoked, flags := { ended := true } } }
      ∧ EventFrame s t (fun j => j == i) false ∧ Aside s t ∧ PortsSteady s t
      ∧ Answered s t p .revoke .ok [portByte l.holder, l.state.toByte]

/-- R13, R42, R59, R75, R79: when the clock stands at its expiry, its yield deadline or its wait deadline, a
lease ends EXPIRED, PREEMPTED or WAIT_EXPIRED, keeps its renewal count, and has ENDED alone pending; the lines
of a holding lease are unbound involuntarily; the scan and the evaluation follow (log entry 29 for the
withdrawals). That an event which
arose before a freeze is taken during it too is the model's reading (log entry 36). -/
def Obligations.DeadlinesEndLeases : Prop :=
  ∀ (s : State) (i : Fin 16) (l : Lease), s.inReset = false → s.leaseAt i = some l →
    BindingLaw s → QueueLaw s →
    let ends := fun (c : Instr) (cause : Cause) =>
      ∃ t, exec c s = .next t
        ∧ t.slot i =
            { s.slot i with
              lease := some { l with phase := .ended (l.count.getD 0) cause, flags := { ended := true } } }
        ∧ EventFrame s t (fun j => j == i) false ∧ Aside s t ∧ PortsSteady s t ∧ Unanswered s t
    (∀ g : Holding, l.holding = some g → g.expiry = s.clock.count → ends (.expiry i.val) .expired)
    ∧ (∀ (g : Holding), l.phase = .yielding g s.clock.count → ends (.yieldDeadline i.val) .preempted)
    ∧ (l.phase = .waiting (some s.clock.count) → ends (.waitDeadline i.val) .waitExpired)

/-- R54: when a lease in ACTIVE or YIELDING, not yet warned this term, has no more ticks left than its holder
port's non-zero margin, its warning event posts WARNING and sets warned this term, and changes nothing else. That an event which
arose before a freeze is taken during it too is the model's reading (log entry 36). -/
def Obligations.WarningEventWarnsOnce : Prop :=
  ∀ (s : State) (i : Fin 16) (l : Lease) (g : Holding), s.inReset = false → s.leaseAt i = some l →
    l.holding = some g → g.warned = false → (s.port l.holder).margin ≠ 0 →
    (g.expiry - s.clock.count).toNat ≤ (s.port l.holder).margin.toNat → YieldLaw s →
    ∃ t, exec (.warningEvent i.val) s = .next t
      ∧ (∃ l' : Lease, t.slot i = { s.slot i with lease := some l' }
          ∧ l'.holding = some { g with warned := true }
          ∧ { l' with phase := l.phase, flags := l.flags } = l ∧ l'.state = l.state
          ∧ l'.yieldDeadline = l.yieldDeadline ∧ l'.flags = { l.flags with warning := true })
      ∧ (∀ j : Fin 16, j ≠ i → t.slot j = s.slot j) ∧ (∀ m : Fin 16, t.line m = s.line m)
      ∧ t.queue = s.queue ∧ Aside s t ∧ PortsSteady s t ∧ Unanswered s t

/-! ## Lines (chapter 5) -/

/-- R92, R38: when the clock stands at its quarantine deadline, a line goes to FREE at its rest drive as it now
stands, and the table, the queue and the lines are what the scan and the evaluation then make of that (log entry 29
for the withdrawals): the scan may bind the line to a waiter, and no other line leaves quarantine. That an event which
arose before a freeze is taken during it too is the model's reading (log entry 36). -/
def Obligations.QuarantineEndsAtDeadline : Prop :=
  ∀ (s : State) (m : Fin 16), s.inReset = false → (s.line m).occ = .quarantine s.clock.count →
    BindingLaw s → QueueLaw s →
    ∃ t, exec (.quarantineDeadline m.val) s = .next t
      ∧ s.leftLine t m { s.line m with occ := .free, current := (s.line m).rest } = true
      ∧ (∀ k : Fin 16, k ≠ m → s.lineMoved t k = true)
      ∧ (∀ j : Fin 16, s.slotMoved t j = true) ∧ t.queue.Sublist s.queue
      ∧ (∃ u : State, RestedAt s u m ∧ SettledFrom u t true)
      ∧ Aside s t ∧ PortsSteady s t ∧ Unanswered s t

/-- R96 to R99: a DRIVE of lines of the holder's ACTIVE or YIELDING lease sets the holder drive of each named
line, static at once, or a pulse from its inactive level with its origin at the next tick; a named line outside
the set is answered RANGE; the other lines, and every record, stand. -/
def Obligations.DriveOrdersNamedLines : Prop :=
  ∀ (s : State) (p : Port) (h : Handle) (set : LineSet) (kind delay onTime period : Byte) (i : Fin 16)
    (l : Lease),
    s.nextRequest = some (p, .drive h set kind delay onTime period) → set ≠ 0 → Current s h i l →
    l.holder = p → l.holding ≠ none → BindingLaw s → YieldLaw s → AttentionLaw s →
    let orders := fun (d : HolderDrive) (now : Drive) =>
      (set &&& ~~~l.lines = 0 →
        ∃ t, exec .drive s = .next t
          ∧ (∀ m : Fin 16, t.line m =
              if set.getLsbD m.val then { s.line m with occ := .bound i d, current := now }
              else s.line m)
          ∧ (∀ j : Fin 16, t.slot j = s.slot j) ∧ t.queue = s.queue ∧ Aside s t
          ∧ PortsSteady s t ∧ Answered s t p .drive .ok ([h.slot, h.gen] ++ bytes32 s.clock.count))
      ∧ (set &&& ~~~l.lines ≠ 0 →
          exec .drive s =
            .next (s.respond p .drive { status := .range, data := bytes16 (set &&& ~~~l.lines) }))
    (kind = 0 → orders (.static .low) .low) ∧ (kind = 1 → orders (.static .high) .high)
    ∧ (kind = 2 → orders (.static .off) .off)
    ∧ (onTime ≠ 0 → 2 ≤ period.toNat → onTime.toNat < period.toNat →
        let pulse := fun high : Bool =>
          HolderDrive.pulse
            { activeHigh := high, delay := delay, onTime := onTime, period := period,
              origin := s.clock.count + 1, k := none }
        (kind = 3 → orders (pulse true) .low) ∧ (kind = 4 → orders (pulse false) .high))

/-- R102, R103, R156: a SET_LINE in range gives each line of the set the settings not marked keep; the pin of a
FREE line takes a new rest drive and that of a line in QUARANTINE a new fault drive; a BOUND line's pin stands.
An empty set, or a drive value above 2 that is not marked keep, is answered RANGE. -/
def Obligations.SetLineAppliesSettings : Prop :=
  ∀ (s : State) (p : Port) (set : LineSet) (keep rest fault qlen access : Byte),
    s.nextRequest = some (p, .setLine set keep rest fault qlen access) → YieldLaw s → AttentionLaw s →
    let bad := set = 0 ∨ (keep.getLsbD 0 = false ∧ 2 < rest.toNat) ∨ (keep.getLsbD 1 = false ∧ 2 < fault.toNat)
    let code := fun b : Byte => if b = 0 then Drive.low else if b = 1 then Drive.high else Drive.off
    (bad → exec .setLine s = .next (s.respond p .setLine { status := .range, data := [] }))
    ∧ (¬bad →
        ∃ t, exec .setLine s = .next t
          ∧ (∀ m : Fin 16,
              (set.getLsbD m.val = false → t.line m = s.line m)
              ∧ (set.getLsbD m.val = true →
                  let x := s.line m
                  let rest' := if keep.getLsbD 0 then x.rest else code rest
                  let fault' := if keep.getLsbD 1 then x.fault else code fault
                  t.line m =
                    { occ := x.occ, rest := rest', fault := fault'
                      qlen := if keep.getLsbD 2 then x.qlen else qlen
                      access := if keep.getLsbD 3 then x.access else access.setWidth 4
                      current := match x.occ with
                        | .free => rest'
                        | .quarantine _ => fault'
                        | .bound _ _ => x.current }))
          ∧ (∀ j : Fin 16, t.slot j = s.slot j) ∧ t.queue = s.queue ∧ Aside s t ∧ PortsSteady s t
          ∧ Answered s t p .setLine .ok [])

/-! ## Ports, masks and resets (chapters 8 and 10) -/

/-- R163, R164, R56: a SET_PORT in range, with no quota below the port's slot use, gives the named port the
settings not marked keep. With the margin not marked keep it warns those of the port's ACTIVE and YIELDING leases
whose condition now holds (a margin equal to the one in force among them: the model's reading, log entry 30), and
with the margin kept it warns none. A value out of range is answered RANGE and a quota below use STATE, and then
nothing changes. -/
def Obligations.SetPortAppliesSettings : Prop :=
  ∀ (s : State) (p : Port) (port keep quota ceiling : Byte) (margin window : Ticks),
    s.nextRequest = some (p, .setPort port keep quota ceiling margin window) → YieldLaw s → AttentionLaw s →
    let bad := 3 < port.toNat ∨ (keep.getLsbD 0 = false ∧ 16 < quota.toNat)
      ∨ (keep.getLsbD 1 = false ∧ 3 < ceiling.toNat) ∨ (keep.getLsbD 2 = false ∧ 4095 < margin.toNat)
      ∨ (keep.getLsbD 3 = false ∧ 4095 < window.toNat)
    (bad → exec .setPort s = .next (s.respond p .setPort { status := .range, data := [] }))
    ∧ ∀ q : Port, port = portByte q → ¬bad →
        let low := keep.getLsbD 0 = false ∧ quota.toNat < s.slotUse q
        (low → exec .setPort s = .next (s.respond p .setPort { status := .state, data := [] }))
        ∧ (¬low →
            let margin' := if keep.getLsbD 2 then (s.port q).margin else margin
            ∃ t, exec .setPort s = .next t
              ∧ PortState.steady
                  { s.port q with
                    quota := if keep.getLsbD 0 then (s.port q).quota else quota.toNat
                    ceiling := if keep.getLsbD 1 then (s.port q).ceiling else Fin.ofNat 4 ceiling.toNat
                    margin := margin'
                    window := if keep.getLsbD 3 then (s.port q).window else window }
                  (t.port q) = true
              ∧ (∀ x : Port, x ≠ q → (s.port x).steady (t.port x) = true)
              ∧ (∀ i : Fin 16,
                  (s.leaseAt i = none → t.slot i = s.slot i)
                  ∧ ∀ l : Lease, s.leaseAt i = some l →
                      let warn := keep.getLsbD 2 = false ∧ l.holder = q ∧ ∃ g ∈ l.holding,
                        g.warned = false ∧ margin' ≠ 0 ∧ (g.expiry - s.clock.count).toNat ≤ margin'.toNat
                      (warn → t.slot i = { s.slot i with lease := some l.warn })
                      ∧ (¬warn → t.slot i = s.slot i))
              ∧ (∀ m : Fin 16, t.line m = s.line m) ∧ t.queue = s.queue ∧ Aside s t
              ∧ Answered s t p .setPort .ok [])

/-- R140: a MASK in range replaces the issuing port's mask and mode, and no other port's; a change to LEVEL
ends a running gap, and none begins; a kind beyond the six or another mode is answered RANGE. -/
def Obligations.MaskReplacesMaskAndMode : Prop :=
  ∀ (s : State) (p : Port) (kinds mode : Byte), s.nextRequest = some (p, .mask kinds mode) →
    YieldLaw s → AttentionLaw s →
    (64 ≤ kinds.toNat ∨ 1 < mode.toNat →
      exec .mask s = .next (s.respond p .mask { status := .range, data := [] }))
    ∧ (kinds.toNat < 64 → mode.toNat ≤ 1 →
        ∃ t, exec .mask s = .next t ∧ TableStands s t ∧ Aside s t
          ∧ (∀ q : Port, q ≠ p → t.port q = s.port q)
          ∧ PortState.steady
              { s.port p with
                mask := { granted := kinds.getLsbD 0, warning := kinds.getLsbD 1, yield := kinds.getLsbD 2
                          withdrawn := kinds.getLsbD 3, ended := kinds.getLsbD 4 }
                maskClock := kinds.getLsbD 5
                mode := if mode = 0 then .level else .gap }
              (t.port p) = true
          ∧ (t.port p).gap = (if mode = 0 then none else (s.port p).gap)
          ∧ (t.port p).attn = t.attnLevel p
          ∧ Answered s t p .mask .ok [kinds, mode])

/-- R168, R170, R171, R155: a DETACH of an attached port B to D, and an accepted fall of PEN_x of an attached
port, return every slot of that port to FREE at the next generation and unbind its lines involuntarily, with
one scan and evaluation after (log entry 29 for the withdrawals); the port's buffer is emptied, its transaction ignored, its CLOCK flag cleared,
its gap ended and its ATTN released; and its mask, mode and settings are kept. -/
def Obligations.DetachTakesPortAway : Prop :=
  ∀ (s : State) (x : Port), s.attached x = true → BindingLaw s → QueueLaw s → YieldLaw s →
    let gone := fun y : PortState =>
      { y with
        buffer := .empty, clockFlag := false, gap := none, attn := false
        transaction := match y.transaction with
          | .idle => .idle
          | .ignored => .ignored
          | .shifting _ => .ignored }
    let frame := fun t : State =>
      (∀ i : Fin 16, ∀ l ∈ s.leaseAt i, l.holder = x →
          t.slot i = { gen := (s.slot i).gen + 1, lease := none })
      ∧ EventFrame s t (fun j => (s.slot j).heldBy x) false ∧ Aside s t
      ∧ ∀ q : Port, q ≠ x → (s.port q).steady (t.port q) = true
    (∃ t, exec (.penChange x false) s = .next t ∧ frame t ∧ t.port x = gone { s.port x with pen := false }
      ∧ t.pointer = s.pointer ∧ ∀ q : Port, q ≠ x → (t.port q).buffer = (s.port q).buffer)
    ∧ ∀ p : Port, p ≠ x → x ≠ .A → s.nextRequest = some (p, .detach (portByte x)) →
        ∃ t, exec .detach s = .next t ∧ frame t ∧ t.port x = gone { s.port x with cmdDetach := true }
          ∧ t.pointer = p
          ∧ (t.port p).buffer = .ready (Response.make 0x46 { status := .ok, data := [] })
          ∧ ∀ q : Port, q ≠ x → q ≠ p → (t.port q).buffer = (s.port q).buffer

/-- R167 to R169: an ATTACH clears the port's command-detach flag and an accepted level of PEN_x that detaches
nothing is stored, each changing nothing else; a DETACH of a detached port sets its flag alone; a DETACH of
port A is answered STATE, and a port value above 03h RANGE. -/
def Obligations.AttachmentItemsChangeAlone : Prop :=
  ∀ s : State, YieldLaw s → AttentionLaw s → DetachedLaw s →
    (∀ (p q : Port), s.nextRequest = some (p, .attach (portByte q)) →
        exec .attach s = .next ((s.updPort q fun x => { x with cmdDetach := false }).respond p .attach
          { status := .ok, data := [] }))
    ∧ (∀ (p q : Port), q ≠ .A → s.attached q = false → s.nextRequest = some (p, .detach (portByte q)) →
        exec .detach s = .next ((s.updPort q fun x => { x with cmdDetach := true }).respond p .detach
          { status := .ok, data := [] }))
    ∧ (∀ p : Port, s.nextRequest = some (p, .detach 0x00) →
        exec .detach s = .next (s.respond p .detach { status := .state, data := [] }))
    ∧ (∀ (p : Port) (b : Byte), 3 < b.toNat →
        (s.nextRequest = some (p, .detach b) →
          exec .detach s = .next (s.respond p .detach { status := .range, data := [] }))
        ∧ (s.nextRequest = some (p, .attach b) →
          exec .attach s = .next (s.respond p .attach { status := .range, data := [] })))
    ∧ ∀ (x : Port) (high : Bool), s.inReset = false → (s.port x).pen ≠ high → s.attached x = false →
        exec (.penChange x high) s = .next (s.updPort x fun q => { q with pen := high })

/-- R173, R174: a SOFT_RESET frees every slot that is not FREE at its next generation, empties the queue, sends
every line that is not FREE to its rest drive, empties the other ports' buffers, clears every CLOCK flag and
ends every gap; it answers OK; and it keeps every setting, the transactions, the clock and the heartbeats. -/
def Obligations.SoftResetClearsTableAndLines : Prop :=
  ∀ (s : State) (p : Port), s.nextRequest = some (p, .softReset) →
    ∃ t, exec .softReset s = .next t
      ∧ (∀ i : Fin 16, t.slot i =
          { gen := if s.leaseAt i = none then (s.slot i).gen else (s.slot i).gen + 1, lease := none })
      ∧ t.queue = []
      ∧ (∀ m : Fin 16, t.line m =
          if (s.line m).isFree then s.line m
          else { s.line m with occ := .free, current := (s.line m).rest })
      ∧ (∀ q : Port, q ≠ p → t.port q =
          { s.port q with buffer := .empty, clockFlag := false, gap := none, attn := false })
      ∧ t.port p =
          { s.port p with
            buffer := .ready (Response.make 0x49 { status := .ok, data := [] })
            clockFlag := false, gap := none, attn := false }
      ∧ t.pointer = p ∧ Aside s t

/-- R176, R177, R22, R106, R107, R115, R132, R144, R160, R162, R167: DEVICE_RESET holds the part in reset with
every block at its values; RESET_RELEASE, from there, samples the heartbeat and port-enable pins, begins a
local tick and lets the part run, and changes nothing else (the pin level it sampled is held in a field of the
model's own, log entry 6). That a claim not yet taken is discarded by the reset,
and one kept by the release, is the model's choice (log entry 20). -/
def Obligations.DeviceResetAndRelease : Prop :=
  (∀ s : State,
      ∃ t, exec .deviceReset s = .next t ∧ t.inReset = true ∧ t.queue = [] ∧ t.pointer = .D
        ∧ (∀ i : Fin 16, t.slot i = { gen := 0, lease := none })
        ∧ (∀ m : Fin 16, t.line m =
            { occ := .free, rest := .off, fault := .off, qlen := 0, access := 0b1111, current := .off })
        ∧ (∀ q : Port,
            (t.port q).quota = 4 ∧ (t.port q).ceiling = (if q = .A then 3 else 1) ∧ (t.port q).margin = 0
            ∧ (t.port q).window = 256 ∧ (t.port q).cmdDetach = false ∧ (t.port q).buffer = .empty
            ∧ (t.port q).mask = {} ∧ (t.port q).maskClock = false ∧ (t.port q).mode = .level
            ∧ (t.port q).clockFlag = false ∧ (t.port q).gap = none ∧ (t.port q).attn = false
            ∧ t.attached q = false ∧ ∀ k : Nat, t.misoByte q k = none)
        ∧ (∀ n : Fin 4,
            (t.input n).enabled = false ∧ (t.input n).edge = .rising ∧ (t.input n).debounce = 3
            ∧ (t.input n).stable = 0 ∧ (t.input n).seeding = false ∧ (t.input n).claims = 0)
        ∧ t.clock.state = .start ∧ t.clock.count = 0 ∧ t.clock.policy = .continue
        ∧ t.clock.resume = .manual ∧ t.clock.trim = 0 ∧ t.clock.correction = 0 ∧ t.clock.silence = 0
        ∧ t.clock.present = false ∧ t.clock.qual = none ∧ t.clock.tick = none)
    ∧ ∀ (s : State) (hb : BitVec 4) (pen : PortSet), s.inReset = true →
        ∃ t, exec (.resetRelease hb pen) s = .next t ∧ t.inReset = false ∧ TableStands s t
          ∧ t.pointer = s.pointer
          ∧ (∀ n : Fin 4,
              t.input n =
                { s.input n with
                  level := hb.getLsbD n.val, stable := 0, seeding := false, pin := hb.getLsbD n.val })
          ∧ t.choices = s.choices ∧ t.pending = s.pending
          ∧ (∀ q : Port, t.port q = { s.port q with pen := pen.getLsbD (portBit q) }
              ∧ t.attached q = (pen.getLsbD (portBit q) && !(s.port q).cmdDetach))
          ∧ t.clock = { s.clock with tick := some { counted := 0, length := 1000 } }

/-! ## Reports (chapters 1, 5, 8 and 9) -/

/-- R19, R20, R21, R158: a QUERY that passes the handle checks, and a PEEK of any slot, answer OK with the
record in the layout of R158, and change nothing. -/
def Obligations.QueryAndPeekReportRecord : Prop :=
  ∀ s : State, YieldLaw s → AttentionLaw s →
    let record := fun (i : Fin 16) (l : Lease) =>
      [l.tag] ++ bytes16 l.lines
        ++ [BitVec.ofNat 8 l.level.val,
            (if l.yieldable then 0x01 else 0x00)
              ||| (if (∃ g ∈ l.holding, g.warned = true) then 0x02 else 0x00)]
        ++ bytes16 l.term ++ bytes16 (l.waitLimit.getD 0)
        ++ [match l.source with
            | some n => BitVec.ofNat 8 n.val
            | none => 0xFF,
            l.cap.getD 0, l.count.getD 0, l.flags.toByte ||| (causeByte l.cause <<< 5),
            if l.isWaiting ∧ i ∈ s.queue then BitVec.ofNat 8 (s.queue.idxOf i + 1) else 0]
    let left := fun d : Option Word =>
      match d with
      | some d => bytes16 ((d - s.clock.count).setWidth 16)
      | none => [0, 0]
    let expiry := fun l : Lease => l.holding.map fun g => g.expiry
    (∀ (p : Port) (h : Handle) (i : Fin 16) (l : Lease), s.nextRequest = some (p, .query h) →
        Current s h i l → l.holder = p →
        exec .query s = .next (s.respond p .query
          { status := .ok
            data := [h.slot, h.gen, l.state.toByte] ++ record i l ++ left (expiry l)
              ++ left l.waitDeadline ++ left l.yieldDeadline }))
    ∧ (∀ (p : Port) (b : Byte), s.nextRequest = some (p, .peek b) → 15 < b.toNat →
        exec .peek s = .next (s.respond p .peek { status := .range, data := [] }))
    ∧ ∀ (p : Port) (b : Byte) (i : Fin 16), s.nextRequest = some (p, .peek b) → b.toNat = i.val →
        (s.leaseAt i = none →
          exec .peek s = .next (s.respond p .peek { status := .ok, data := [b, (s.slot i).gen, 0x00] }))
        ∧ ∀ l : Lease, s.leaseAt i = some l →
            exec .peek s = .next (s.respond p .peek
              { status := .ok
                data := [b, (s.slot i).gen, l.state.toByte, portByte l.holder] ++ record i l
                  ++ [if l.isWaiting && s.orderEligible i then 0x01 else 0x00]
                  ++ bytes32 ((expiry l).getD 0) ++ bytes32 (l.waitDeadline.getD 0)
                  ++ bytes32 (l.yieldDeadline.getD 0) ++ bytes32 s.clock.count })

/-- R105, R131, R135, R158, R159: LIST, TIME, LINES and STATUS answer OK with the data of R158 and R159, and
change nothing. -/
def Obligations.ListTimeLinesStatusReport : Prop :=
  ∀ (s : State) (p : Port), YieldLaw s → AttentionLaw s →
    let answers := fun (c : Instr) (k : Command) (data : List Byte) =>
      exec c s = .next (s.respond p k { status := .ok, data := data })
    let bit := fun (b : Bool) (v : Byte) => if b then v else 0
    (s.nextRequest = some (p, .list) →
      answers .list .list
        (allSlots.flatMap (fun i =>
            match s.leaseAt i with
            | some l =>
              if l.holder = p then
                [BitVec.ofNat 8 (16 * i.val) ||| l.state.toByte, (s.slot i).gen,
                  l.flags.toByte ||| (causeByte l.cause <<< 5), l.tag]
              else []
            | none => [])
          ++ [bit (s.port p).clockFlag 0x01]))
    ∧ (s.nextRequest = some (p, .time) →
        let frozen := (s.clock.state = .fallback ∨ s.clock.state = .ready) ∧ s.clock.policy = .freeze
        answers .time .time
          (bytes32 s.clock.count
            ++ [s.clock.state.toByte,
                bit (!decide frozen) 0x01
                  ||| (if frozen then 0 else if s.clock.state = .reference then 0x02 else 0x04)
                  ||| bit (s.clock.policy == .freeze) 0x08 ||| bit (s.clock.resume == .auto) 0x10]
            ++ bytes16 (BitVec.ofInt 16 s.clock.trim)
            ++ (if s.clock.state = .reference ∨ s.clock.state = .ready then [0xFF, 0xFE]
                else match s.clock.qual with
                  | none => [0xFF, 0xFF]
                  | some n => bytes16 (BitVec.ofNat 16 n))))
    ∧ (s.nextRequest = some (p, .status) →
        answers .status .status
          ([s.clock.state.toByte,
            bit (s.input 0).level 0x01 ||| bit (s.input 1).level 0x02 ||| bit (s.input 2).level 0x04
              ||| bit (s.input 3).level 0x08 ||| bit (s.input 0).enabled 0x10
              ||| bit (s.input 1).enabled 0x20 ||| bit (s.input 2).enabled 0x40
              ||| bit (s.input 3).enabled 0x80,
            bit (s.attached .A) 0x01 ||| bit (s.attached .B) 0x02 ||| bit (s.attached .C) 0x04
              ||| bit (s.attached .D) 0x08,
            BitVec.ofNat 8 (s.port p).quota, BitVec.ofNat 8 (s.slotUse p),
            BitVec.ofNat 8 (s.port p).ceiling.val]
            ++ bytes16 (s.port p).margin ++ bytes16 (s.port p).window))
    ∧ (s.nextRequest = some (p, .lines) → ∃ data : List Byte, data.length = 80
        ∧ answers .lines .lines data
        ∧ ∀ m : Fin 16,
            let x := s.line m
            (data.drop (5 * m.val)).take 5 =
              [match x.occ with
                | .free => 0x00
                | .quarantine _ => 0x02
                | .bound i d => 0x01 ||| (d.kindByte <<< 4)
                    ||| match s.leaseAt i with
                      | some l => portByte l.holder <<< 2
                      | none => 0x00,
                x.current.toByte ||| (x.rest.toByte <<< 2) ||| (x.fault.toByte <<< 4),
                x.access.setWidth 8,
                match x.occ with
                | .quarantine d => (d - s.clock.count).setWidth 8
                | .free => 0x00
                | .bound _ _ => 0x00,
                x.qlen])

/-! ## Heartbeats and the lease clock (chapters 6 and 7) -/

/-- R111, R113, R114: a SET_HEARTBEAT in range gives each named input the settings not marked keep. An input
newly enabled awaits a seeding sample; that, disabling and a changed debounce length return its stable count
to 0; its accepted level stands, and so do its claims and a pending seeding mark (the model's choice, log
entries 18 and 20). Anything else is answered RANGE. -/
def Obligations.SetHeartbeatAppliesSettings : Prop :=
  ∀ (s : State) (p : Port) (inputs keep enable edge debounce : Byte),
    s.nextRequest = some (p, .setHeartbeat inputs keep enable edge debounce) → YieldLaw s → AttentionLaw s →
    let bad := inputs = 0 ∨ 15 < inputs.toNat ∨ (keep.getLsbD 1 = false ∧ 2 < edge.toNat)
      ∨ (keep.getLsbD 2 = false ∧ (debounce = 0 ∨ 15 < debounce.toNat))
    (bad → exec .setHeartbeat s = .next (s.respond p .setHeartbeat { status := .range, data := [] }))
    ∧ (¬bad →
        ∃ t, exec .setHeartbeat s = .next t ∧ TableStands s t ∧ t.clock = s.clock ∧ t.choices = s.choices
          ∧ t.inReset = s.inReset ∧ t.pending = s.pending ∧ (∀ q : Port, q ≠ p → t.port q = s.port q)
          ∧ PortsSteady s t ∧ Answered s t p .setHeartbeat .ok []
          ∧ ∀ n : Fin 4,
              (inputs.getLsbD n.val = false → t.input n = s.input n)
              ∧ (inputs.getLsbD n.val = true →
                  let x := s.input n
                  let on := if keep.getLsbD 0 then x.enabled else enable.getLsbD 0
                  let length := if keep.getLsbD 2 then x.debounce else debounce.toNat
                  t.input n =
                    { x with
                      enabled := on
                      edge := if keep.getLsbD 1 then x.edge
                        else if edge = 0 then .rising else if edge = 1 then .falling else .both
                      debounce := length
                      stable := if on = x.enabled ∧ length = x.debounce then x.stable else 0
                      seeding := if on = true ∧ x.enabled = false then true else x.seeding }))

/-- R129, R119, R126, R128: a SET_CLOCK in range sets the policy, resume mode and trim that are not marked
keep; a changed trim returns the correction sum to 0; a changed policy in FALLBACK or READY begins or discards
a local tick; setting AUTO in READY takes the clock to REFERENCE and posts CLOCK to every attached port (that a
change of the source discards a complete tick too is THE MODEL'S CHOICE, log entry 33). A
value out of range is answered RANGE. -/
def Obligations.SetClockAppliesSettings : Prop :=
  ∀ (s : State) (p : Port) (keep policy mode : Byte) (trim : Ticks),
    s.nextRequest = some (p, .setClock keep policy mode trim) → YieldLaw s → AttentionLaw s →
    let bad := (keep.getLsbD 0 = false ∧ 1 < policy.toNat) ∨ (keep.getLsbD 1 = false ∧ 1 < mode.toNat)
      ∨ (keep.getLsbD 2 = false ∧ 255 < trim.toInt.natAbs)
    let c := s.clock
    let policy' := if keep.getLsbD 0 then c.policy else if policy = 0 then .continue else .freeze
    let mode' := if keep.getLsbD 1 then c.resume else if mode = 0 then .manual else .auto
    let trim' := if keep.getLsbD 2 then c.trim else trim.toInt
    let resumes := c.state = .ready ∧ c.resume = .manual ∧ mode' = .auto
    let waits := c.state = .fallback ∨ c.state = .ready
    (bad → exec .setClock s = .next (s.respond p .setClock { status := .range, data := [] }))
    ∧ (¬bad →
        ∃ t, exec .setClock s = .next t ∧ TableStands s t ∧ t.inputs = s.inputs ∧ t.pending = s.pending
          ∧ t.clock.count = c.count ∧ t.clock.policy = policy' ∧ t.clock.resume = mode'
          ∧ t.clock.trim = trim' ∧ t.clock.silence = c.silence ∧ t.clock.present = c.present
          ∧ (resumes → t.clock.state = .reference ∧ t.clock.correction = 0 ∧ t.clock.qual = none
              ∧ t.clock.tick = some { counted := 0, length := 32 })
          ∧ (¬resumes → t.clock.state = c.state ∧ t.clock.qual = c.qual
              ∧ t.clock.correction = (if trim' = c.trim then c.correction else 0)
              ∧ t.clock.tick =
                  if policy' = c.policy ∨ ¬waits then c.tick
                  else if policy' = .continue then some { counted := 0, length := 1000 } else none)
          ∧ (∀ q : Port, PortState.steady
              { s.port q with
                clockFlag := (s.port q).clockFlag || (decide resumes && s.attached q) }
              (t.port q) = true)
          ∧ Answered s t p .setClock .ok (t.clock.state.toByte :: bytes32 c.count))

/-- R127, R128: a RESUME in READY takes the clock to REFERENCE, where a reference tick begins from 0, posts
CLOCK to every attached port and answers with the lease clock; in any other state it is answered STATE with the
clock state and the qualification count, and nothing changes. That the RESUME discards a complete local tick too is
THE MODEL'S CHOICE (log entry 33). -/
def Obligations.ResumeReturnsToReference : Prop :=
  ∀ (s : State) (p : Port), s.nextRequest = some (p, .resume) → YieldLaw s → AttentionLaw s →
    (s.clock.state = .ready →
      ∃ t, exec .resume s = .next t ∧ TableStands s t ∧ t.inputs = s.inputs ∧ t.pending = s.pending
        ∧ t.clock =
            { s.clock with
              state := .reference, correction := 0, qual := none
              tick := some { counted := 0, length := 32 } }
        ∧ (∀ q : Port, PortState.steady
            { s.port q with clockFlag := (s.port q).clockFlag || s.attached q } (t.port q) = true)
        ∧ Answered s t p .resume .ok (bytes32 s.clock.count))
    ∧ (s.clock.state ≠ .ready →
        exec .resume s = .next (s.respond p .resume
          { status := .state
            data := s.clock.state.toByte ::
              if s.clock.state = .reference then [0xFF, 0xFE]
              else match s.clock.qual with
                | none => [0xFF, 0xFF]
                | some n => bytes16 (BitVec.ofNat 16 n) }))

/-- R98, R108, R109, R111, R116 to R118, R121: a TICK that can be made advances the lease clock, begins the
next tick, advances every running pattern and sets its level, and samples every enabled heartbeat input; the
table, the queue and the ports stand. The trim that counts is the one in force when the tick is made (log entry
31). A reference tick made before its edges were counted stands for the missing ones, which end the silence (R122,
log entry 9), even where a loss event stands open (log entry 35); edges counted while it waited are counted towards
the next tick (log entry 8). While the clock is frozen (R125) or in reset nothing changes; that a TICK waits,
changing nothing, while an event of the present tick is open is THE MODEL'S CHOICE (log entry 8). -/
def Obligations.TickAdvancesAllReaders : Prop :=
  ∀ (s : State) (hb : BitVec 4),
    (s.tickReady = false → exec (.tick hb) s = .next s)
    ∧ (s.tickReady = true →
        ∃ t, exec (.tick hb) s = .next t ∧ t.slots = s.slots ∧ t.queue = s.queue ∧ t.ports = s.ports
          ∧ t.pointer = s.pointer ∧ t.pending = s.pending ∧ t.clock.count = s.clock.count + 1
          ∧ (s.clock.state ≠ .reference →
              t.clock = { s.clock with
                count := s.clock.count + 1, tick := some { counted := 0, length := 1000 } })
          ∧ (s.clock.state = .reference →
              let due := ∃ k ∈ s.clock.tick, k.length ≤ k.counted
              ∃ length : Nat,
                t.clock = { s.clock with
                  count := s.clock.count + 1, correction := t.clock.correction
                  silence := if due then s.clock.silence else 0
                  present := if due then s.clock.present else true
                  tick := some
                    { counted := match s.clock.tick with
                        | some k => k.counted - k.length
                        | none => 0
                      length := length } }
                ∧ (s.clock.trim = 0 → length = 32 ∧ t.clock.correction = s.clock.correction)
                ∧ (s.clock.trim ≠ 0 →
                    (s.clock.correction + s.clock.trim.natAbs < 32768 →
                      length = 32 ∧ t.clock.correction = s.clock.correction + s.clock.trim.natAbs)
                    ∧ (32768 ≤ s.clock.correction + s.clock.trim.natAbs →
                      length = (if 0 < s.clock.trim then 31 else 33)
                      ∧ t.clock.correction + 32768 = s.clock.correction + s.clock.trim.natAbs)))
          ∧ (∀ m : Fin 16,
              ((s.line m).pattern = none → t.line m = s.line m)
              ∧ ∀ (i : Fin 16) (u : Pulse), (s.line m).occ = .bound i (.pulse u) →
                  let k := match u.k with
                    | none => 0
                    | some k => k + 1
                  let active := u.delay.toNat ≤ k ∧ (k - u.delay.toNat) % u.period.toNat < u.onTime.toNat
                  t.line m =
                    { s.line m with
                      occ := .bound i (.pulse { u with k := some k })
                      current := if active ↔ u.activeHigh = true then .high else .low })
          ∧ ∀ n : Fin 4,
              let x := s.input n
              let sample := hb.getLsbD n.val
              let y := { t.input n with pin := x.pin }
              (x.enabled = false → y = x)
              ∧ (x.enabled = true → x.seeding = true → y = { x with level := sample, seeding := false })
              ∧ (x.enabled = true → x.seeding = false →
                  (sample = x.level → y = { x with stable := 0 })
                  ∧ (sample ≠ x.level → x.stable + 1 ≠ x.debounce → y = { x with stable := x.stable + 1 })
                  ∧ (sample ≠ x.level → x.stable + 1 = x.debounce →
                      y = { x with
                        level := sample, stable := 0
                        claims := x.claims
                          + if (x.edge = .both ∨ (x.edge = .rising ∧ sample = true)
                              ∨ (x.edge = .falling ∧ sample = false)) then 1 else 0 })))

/-- R119, R122 to R124, R126, R128: a loss event makes the reference LOST and the qualification count
unstarted, and takes REFERENCE and READY to FALLBACK with CLOCK posted to every attached port; qualification
takes START to REFERENCE without a notice, and FALLBACK to READY, or under AUTO to REFERENCE, with one; an edge
ends the silence, starts or advances the qualification count, and is one period of a reference tick (R116); and
none of them moves the table, the lines or the lease clock, but that the edge which completes a reference tick, with
no event of the present tick open, makes that tick: it does what a TICK does on the clock that has counted the edge
(with the pin levels last found, log entry 6; while an event is open the edges count on, log entry 8). That these
commands need no count of periods to have passed, that a change of the source discards a complete tick too, and that
an edge taken ahead of an open loss event ends the silence, is THE MODEL'S CHOICE (log entries 9, 10, 33 and 35). -/
def Obligations.ReferenceSupervisionMovesClock : Prop :=
  ∀ s : State, s.inReset = false →
    let c := s.clock
    let local0 : TickProgress := { counted := 0, length := 1000 }
    let ref0 : TickProgress := { counted := 0, length := 32 }
    let moves := fun (e : Instr) (d : Clock) (posts : Bool) =>
      ∃ t, exec e s = .next t ∧ TableStands s t ∧ t.inputs = s.inputs ∧ t.pending = s.pending
        ∧ Unanswered s t ∧ t.clock = d
        ∧ ∀ q : Port, PortState.steady
            { s.port q with clockFlag := (s.port q).clockFlag || (posts && s.attached q) }
            (t.port q) = true
    let lost := { c with silence := 256, present := false, qual := none }
    let seen := { c with silence := 0, present := true }
    let toReference := { seen with state := .reference, correction := 0, qual := none, tick := some ref0 }
    let toReady := { seen with state := .ready, qual := none }
    let qualifies := fun e : Instr =>
      (c.state = .start → moves e toReference false)
      ∧ (c.state = .fallback → c.resume = .manual → moves e toReady true)
      ∧ (c.state = .fallback → c.resume = .auto → moves e toReference true)
    (c.present = false → moves .lossEvent { c with silence := 256 } false)
    ∧ (c.present = true →
        (c.state = .start ∨ c.state = .fallback → moves .lossEvent lost false)
        ∧ (c.state = .reference → moves .lossEvent
            { lost with
              state := .fallback, tick := if c.policy = .continue then some local0 else none } true)
        ∧ (c.state = .ready → moves .lossEvent { lost with state := .fallback } true))
    ∧ qualifies .qualificationEvent
    ∧ (c.state = .reference ∨ c.state = .ready → moves .qualificationEvent c false)
    ∧ (c.state = .start ∨ c.state = .fallback →
        (c.qual = none → moves .refclkEdge { seen with qual := some 0 } false)
        ∧ ∀ n : Nat, c.qual = some n →
            (n < 2047 → moves .refclkEdge { seen with qual := some (n + 1) } false)
            ∧ (2047 ≤ n → qualifies .refclkEdge))
    ∧ (c.state = .ready → moves .refclkEdge seen false)
    ∧ (c.state = .reference →
        let counted := { seen with tick := c.tick.map fun k => { k with counted := k.counted + 1 } }
        let completes := s.eventsOpen = false ∧ ∃ k ∈ c.tick, k.length ≤ k.counted + 1
        (¬completes → moves .refclkEdge counted false)
        ∧ (completes → ∃ t, exec .refclkEdge s = .next t ∧ t.clock.count = c.count + 1
            ∧ exec (.tick s.pins) { s with clock := counted } = .next t))
end

