-- ==== Sys2Proof/Laws/State.lean ====
section
/-! SUPPORT. One lemma for each field of the state under each update: what the update makes of it. -/

namespace Sys2Proof.Machine

variable (s : State)

@[simp] theorem PerPort.get_tabulate {α : Type} (f : Port → α) (p : Port) :
    (PerPort.tabulate f).get p = f p := by cases p <;> rfl

/-! ## What an update changes -/

@[simp] theorem State.slot_mapSlots (f : Fin 16 → Slot → Slot) (j : Fin 16) :
    (s.mapSlots f).slot j = f j (s.slot j) := by
  simp [State.mapSlots, State.slot]

@[simp] theorem State.line_mapLines (f : Fin 16 → Line → Line) (l : Fin 16) :
    (s.mapLines f).line l = f l (s.line l) := by
  simp [State.mapLines, State.line]

@[simp] theorem State.port_mapPorts (f : Port → PortState → PortState) (r : Port) :
    (s.mapPorts f).port r = f r (s.port r) := by
  simp [State.mapPorts, State.port]

@[simp] theorem State.input_mapInputs (f : Fin 4 → HbInput → HbInput) (n : Fin 4) :
    (s.mapInputs f).input n = f n (s.input n) := by
  simp [State.mapInputs, State.input]

@[simp] theorem State.slot_updSlot (i : Fin 16) (f : Slot → Slot) (j : Fin 16) :
    (s.updSlot i f).slot j = if j = i then f (s.slot j) else s.slot j := by
  simp [State.updSlot]

@[simp] theorem State.port_updPort (p : Port) (f : PortState → PortState) (r : Port) :
    (s.updPort p f).port r = if r = p then f (s.port r) else s.port r := by
  simp [State.updPort]

@[simp] theorem State.queue_setQueue (q : List (Fin 16)) : (s.setQueue q).queue = q := rfl

@[simp] theorem State.pointer_setPointer (p : Port) : (s.setPointer p).pointer = p := rfl

@[simp] theorem State.clock_updClock (f : Clock → Clock) : (s.updClock f).clock = f s.clock := rfl

/-! ## What an update leaves alone -/

@[simp] theorem State.line_mapSlots (f : Fin 16 → Slot → Slot) (l : Fin 16) :
    (s.mapSlots f).line l = s.line l := rfl

@[simp] theorem State.port_mapSlots (f : Fin 16 → Slot → Slot) (r : Port) :
    (s.mapSlots f).port r = s.port r := rfl

@[simp] theorem State.input_mapSlots (f : Fin 16 → Slot → Slot) (n : Fin 4) :
    (s.mapSlots f).input n = s.input n := rfl

@[simp] theorem State.queue_mapSlots (f : Fin 16 → Slot → Slot) :
    (s.mapSlots f).queue = s.queue := rfl

@[simp] theorem State.clock_mapSlots (f : Fin 16 → Slot → Slot) :
    (s.mapSlots f).clock = s.clock := rfl

@[simp] theorem State.pointer_mapSlots (f : Fin 16 → Slot → Slot) :
    (s.mapSlots f).pointer = s.pointer := rfl

@[simp] theorem State.inReset_mapSlots (f : Fin 16 → Slot → Slot) :
    (s.mapSlots f).inReset = s.inReset := rfl

@[simp] theorem State.choices_mapSlots (f : Fin 16 → Slot → Slot) :
    (s.mapSlots f).choices = s.choices := rfl

@[simp] theorem State.pending_mapSlots (f : Fin 16 → Slot → Slot) :
    (s.mapSlots f).pending = s.pending := rfl

@[simp] theorem State.slot_mapLines (f : Fin 16 → Line → Line) (j : Fin 16) :
    (s.mapLines f).slot j = s.slot j := rfl

@[simp] theorem State.port_mapLines (f : Fin 16 → Line → Line) (r : Port) :
    (s.mapLines f).port r = s.port r := rfl

@[simp] theorem State.input_mapLines (f : Fin 16 → Line → Line) (n : Fin 4) :
    (s.mapLines f).input n = s.input n := rfl

@[simp] theorem State.queue_mapLines (f : Fin 16 → Line → Line) :
    (s.mapLines f).queue = s.queue := rfl

@[simp] theorem State.clock_mapLines (f : Fin 16 → Line → Line) :
    (s.mapLines f).clock = s.clock := rfl

@[simp] theorem State.pointer_mapLines (f : Fin 16 → Line → Line) :
    (s.mapLines f).pointer = s.pointer := rfl

@[simp] theorem State.inReset_mapLines (f : Fin 16 → Line → Line) :
    (s.mapLines f).inReset = s.inReset := rfl

@[simp] theorem State.choices_mapLines (f : Fin 16 → Line → Line) :
    (s.mapLines f).choices = s.choices := rfl

@[simp] theorem State.pending_mapLines (f : Fin 16 → Line → Line) :
    (s.mapLines f).pending = s.pending := rfl

@[simp] theorem State.slot_mapPorts (f : Port → PortState → PortState) (j : Fin 16) :
    (s.mapPorts f).slot j = s.slot j := rfl

@[simp] theorem State.line_mapPorts (f : Port → PortState → PortState) (l : Fin 16) :
    (s.mapPorts f).line l = s.line l := rfl

@[simp] theorem State.input_mapPorts (f : Port → PortState → PortState) (n : Fin 4) :
    (s.mapPorts f).input n = s.input n := rfl

@[simp] theorem State.queue_mapPorts (f : Port → PortState → PortState) :
    (s.mapPorts f).queue = s.queue := rfl

@[simp] theorem State.clock_mapPorts (f : Port → PortState → PortState) :
    (s.mapPorts f).clock = s.clock := rfl

@[simp] theorem State.pointer_mapPorts (f : Port → PortState → PortState) :
    (s.mapPorts f).pointer = s.pointer := rfl

@[simp] theorem State.inReset_mapPorts (f : Port → PortState → PortState) :
    (s.mapPorts f).inReset = s.inReset := rfl

@[simp] theorem State.choices_mapPorts (f : Port → PortState → PortState) :
    (s.mapPorts f).choices = s.choices := rfl

@[simp] theorem State.pending_mapPorts (f : Port → PortState → PortState) :
    (s.mapPorts f).pending = s.pending := rfl

@[simp] theorem State.slot_mapInputs (f : Fin 4 → HbInput → HbInput) (j : Fin 16) :
    (s.mapInputs f).slot j = s.slot j := rfl

@[simp] theorem State.line_mapInputs (f : Fin 4 → HbInput → HbInput) (l : Fin 16) :
    (s.mapInputs f).line l = s.line l := rfl

@[simp] theorem State.port_mapInputs (f : Fin 4 → HbInput → HbInput) (r : Port) :
    (s.mapInputs f).port r = s.port r := rfl

@[simp] theorem State.queue_mapInputs (f : Fin 4 → HbInput → HbInput) :
    (s.mapInputs f).queue = s.queue := rfl

@[simp] theorem State.clock_mapInputs (f : Fin 4 → HbInput → HbInput) :
    (s.mapInputs f).clock = s.clock := rfl

@[simp] theorem State.pointer_mapInputs (f : Fin 4 → HbInput → HbInput) :
    (s.mapInputs f).pointer = s.pointer := rfl

@[simp] theorem State.inReset_mapInputs (f : Fin 4 → HbInput → HbInput) :
    (s.mapInputs f).inReset = s.inReset := rfl

@[simp] theorem State.choices_mapInputs (f : Fin 4 → HbInput → HbInput) :
    (s.mapInputs f).choices = s.choices := rfl

@[simp] theorem State.pending_mapInputs (f : Fin 4 → HbInput → HbInput) :
    (s.mapInputs f).pending = s.pending := rfl

@[simp] theorem State.line_updSlot (i : Fin 16) (f : Slot → Slot) (l : Fin 16) :
    (s.updSlot i f).line l = s.line l := rfl

@[simp] theorem State.port_updSlot (i : Fin 16) (f : Slot → Slot) (r : Port) :
    (s.updSlot i f).port r = s.port r := rfl

@[simp] theorem State.input_updSlot (i : Fin 16) (f : Slot → Slot) (n : Fin 4) :
    (s.updSlot i f).input n = s.input n := rfl

@[simp] theorem State.queue_updSlot (i : Fin 16) (f : Slot → Slot) :
    (s.updSlot i f).queue = s.queue := rfl

@[simp] theorem State.clock_updSlot (i : Fin 16) (f : Slot → Slot) :
    (s.updSlot i f).clock = s.clock := rfl

@[simp] theorem State.pointer_updSlot (i : Fin 16) (f : Slot → Slot) :
    (s.updSlot i f).pointer = s.pointer := rfl

@[simp] theorem State.inReset_updSlot (i : Fin 16) (f : Slot → Slot) :
    (s.updSlot i f).inReset = s.inReset := rfl

@[simp] theorem State.choices_updSlot (i : Fin 16) (f : Slot → Slot) :
    (s.updSlot i f).choices = s.choices := rfl

@[simp] theorem State.pending_updSlot (i : Fin 16) (f : Slot → Slot) :
    (s.updSlot i f).pending = s.pending := rfl

@[simp] theorem State.slot_updPort (p : Port) (f : PortState → PortState) (j : Fin 16) :
    (s.updPort p f).slot j = s.slot j := rfl

@[simp] theorem State.line_updPort (p : Port) (f : PortState → PortState) (l : Fin 16) :
    (s.updPort p f).line l = s.line l := rfl

@[simp] theorem State.input_updPort (p : Port) (f : PortState → PortState) (n : Fin 4) :
    (s.updPort p f).input n = s.input n := rfl

@[simp] theorem State.queue_updPort (p : Port) (f : PortState → PortState) :
    (s.updPort p f).queue = s.queue := rfl

@[simp] theorem State.clock_updPort (p : Port) (f : PortState → PortState) :
    (s.updPort p f).clock = s.clock := rfl

@[simp] theorem State.pointer_updPort (p : Port) (f : PortState → PortState) :
    (s.updPort p f).pointer = s.pointer := rfl

@[simp] theorem State.inReset_updPort (p : Port) (f : PortState → PortState) :
    (s.updPort p f).inReset = s.inReset := rfl

@[simp] theorem State.choices_updPort (p : Port) (f : PortState → PortState) :
    (s.updPort p f).choices = s.choices := rfl

@[simp] theorem State.pending_updPort (p : Port) (f : PortState → PortState) :
    (s.updPort p f).pending = s.pending := rfl

@[simp] theorem State.slot_setQueue (q : List (Fin 16)) (j : Fin 16) :
    (s.setQueue q).slot j = s.slot j := rfl

@[simp] theorem State.line_setQueue (q : List (Fin 16)) (l : Fin 16) :
    (s.setQueue q).line l = s.line l := rfl

@[simp] theorem State.port_setQueue (q : List (Fin 16)) (r : Port) :
    (s.setQueue q).port r = s.port r := rfl

@[simp] theorem State.input_setQueue (q : List (Fin 16)) (n : Fin 4) :
    (s.setQueue q).input n = s.input n := rfl

@[simp] theorem State.clock_setQueue (q : List (Fin 16)) :
    (s.setQueue q).clock = s.clock := rfl

@[simp] theorem State.pointer_setQueue (q : List (Fin 16)) :
    (s.setQueue q).pointer = s.pointer := rfl

@[simp] theorem State.inReset_setQueue (q : List (Fin 16)) :
    (s.setQueue q).inReset = s.inReset := rfl

@[simp] theorem State.choices_setQueue (q : List (Fin 16)) :
    (s.setQueue q).choices = s.choices := rfl

@[simp] theorem State.pending_setQueue (q : List (Fin 16)) :
    (s.setQueue q).pending = s.pending := rfl

@[simp] theorem State.slot_setPointer (p : Port) (j : Fin 16) :
    (s.setPointer p).slot j = s.slot j := rfl

@[simp] theorem State.line_setPointer (p : Port) (l : Fin 16) :
    (s.setPointer p).line l = s.line l := rfl

@[simp] theorem State.port_setPointer (p : Port) (r : Port) :
    (s.setPointer p).port r = s.port r := rfl

@[simp] theorem State.input_setPointer (p : Port) (n : Fin 4) :
    (s.setPointer p).input n = s.input n := rfl

@[simp] theorem State.queue_setPointer (p : Port) :
    (s.setPointer p).queue = s.queue := rfl

@[simp] theorem State.clock_setPointer (p : Port) :
    (s.setPointer p).clock = s.clock := rfl

@[simp] theorem State.inReset_setPointer (p : Port) :
    (s.setPointer p).inReset = s.inReset := rfl

@[simp] theorem State.choices_setPointer (p : Port) :
    (s.setPointer p).choices = s.choices := rfl

@[simp] theorem State.pending_setPointer (p : Port) :
    (s.setPointer p).pending = s.pending := rfl

@[simp] theorem State.slot_updClock (f : Clock → Clock) (j : Fin 16) :
    (s.updClock f).slot j = s.slot j := rfl

@[simp] theorem State.line_updClock (f : Clock → Clock) (l : Fin 16) :
    (s.updClock f).line l = s.line l := rfl

@[simp] theorem State.port_updClock (f : Clock → Clock) (r : Port) :
    (s.updClock f).port r = s.port r := rfl

@[simp] theorem State.input_updClock (f : Clock → Clock) (n : Fin 4) :
    (s.updClock f).input n = s.input n := rfl

@[simp] theorem State.queue_updClock (f : Clock → Clock) :
    (s.updClock f).queue = s.queue := rfl

@[simp] theorem State.pointer_updClock (f : Clock → Clock) :
    (s.updClock f).pointer = s.pointer := rfl

@[simp] theorem State.inReset_updClock (f : Clock → Clock) :
    (s.updClock f).inReset = s.inReset := rfl

@[simp] theorem State.choices_updClock (f : Clock → Clock) :
    (s.updClock f).choices = s.choices := rfl

@[simp] theorem State.pending_updClock (f : Clock → Clock) :
    (s.updClock f).pending = s.pending := rfl

/-! ## Two states are equal when their parts are -/

/-- States with the same slots, lines, ports, inputs and remaining fields are equal. -/
theorem State.ext_of_reads {s t : State} (hslot : ∀ i, t.slot i = s.slot i)
    (hline : ∀ l, t.line l = s.line l) (hport : ∀ p, t.port p = s.port p)
    (hinput : ∀ n, t.input n = s.input n) (hqueue : t.queue = s.queue) (hclock : t.clock = s.clock)
    (hpointer : t.pointer = s.pointer) (hreset : t.inReset = s.inReset) (hchoices : t.choices = s.choices)
    (hpending : t.pending = s.pending) : t = s := by
  obtain ⟨_, slots, _, lines, ⟨a, b, c, d⟩, _, inputs, _, _, _⟩ := t
  obtain ⟨_, slots', _, lines', ⟨a', b', c', d'⟩, _, inputs', _, _, _⟩ := s
  have h1 : slots = slots' := Vector.ext fun i hi => hslot ⟨i, hi⟩
  have h2 : lines = lines' := Vector.ext fun i hi => hline ⟨i, hi⟩
  have h3 : inputs = inputs' := Vector.ext fun i hi => hinput ⟨i, hi⟩
  have hA : a = a' := hport .A
  have hB : b = b' := hport .B
  have hC : c = c' := hport .C
  have hD : d = d' := hport .D
  simp_all

end Sys2Proof.Machine
end

