-- ==== Sys2Proof/Laws/Ops.lean ====
section
/-! SUPPORT. For each shared operation, what it can do, said once. -/

namespace Sys2Proof.Machine

variable (s : State)

/-! ## Reads that follow the table -/

/-- The lease of slot `j` after another slot, or this one, was changed. -/
@[simp] theorem State.leaseAt_updLease (i j : Fin 16) (f : Lease → Lease) :
    (s.updLease i f).leaseAt j = if j = i then (s.leaseAt j).map f else s.leaseAt j := by
  unfold State.leaseAt State.updLease
  by_cases h : j = i <;> simp [h]

/-- Changing a lease leaves every generation. -/
@[simp] theorem State.gen_updLease (i j : Fin 16) (f : Lease → Lease) :
    ((s.updLease i f).slot j).gen = (s.slot j).gen := by
  unfold State.updLease
  by_cases h : j = i <;> simp [h]

/-! ## Handles and requests -/

/-- A handle that passes every check names a slot by its number and generation, holding a lease of the port
that the check asked for. -/
theorem State.checkHandle_current {holder : Option Port} {h : Handle} {i : Fin 16} {l : Lease}
    (hc : s.checkHandle holder h = .current i l) :
    Current s h i l ∧ ∀ p, holder = some p → l.holder = p := by
  unfold State.checkHandle slotOfByte at hc
  split at hc
  · cases hc
  · rename_i j hj
    split at hj
    · cases hj
      split at hc
      · cases hc
      · rename_i l' hl
        split at hc
        · cases hc
        · rename_i hgen
          split at hc
          · cases hc
            exact ⟨⟨rfl, hl, by simpa using hgen⟩, by simp⟩
          · rename_i p
            split at hc
            · rename_i hp
              cases hc
              refine ⟨⟨rfl, hl, by simpa using hgen⟩, ?_⟩
              intro q hq
              cases hq
              exact hp
            · cases hc
    · cases hj

/-- A current handle passes the checks of REVOKE, and those of its holder. -/
theorem State.checkHandle_of_current {h : Handle} {i : Fin 16} {l : Lease} (hc : Current s h i l) :
    s.checkHandle none h = .current i l ∧ s.checkHandle (some l.holder) h = .current i l := by
  obtain ⟨hs, hl, hg⟩ := hc
  have hi : slotOfByte h.slot = some i := by
    have : h.slot.toNat < 16 := by rw [hs]; exact i.isLt
    simp only [slotOfByte, this, dite_true]
    congr 1
    exact Fin.ext hs
  simp [State.checkHandle, hi, hl, hg]

/-- The request taken next stands PENDING on its port, of a part that runs. -/
theorem State.nextRequest_pending {p : Port} {r : Request} (h : s.nextRequest = some (p, r)) :
    s.inReset = false ∧ (s.port p).buffer = .pending r := by
  unfold State.nextRequest at h
  split at h
  · cases h
  · rename_i hr
    refine ⟨by simpa using hr, ?_⟩
    obtain ⟨q, -, hq⟩ := List.exists_of_findSome?_eq_some h
    cases hb : (s.port q).buffer with
    | empty => simp [hb, Buffer.request] at hq
    | ready x => simp [hb, Buffer.request] at hq
    | pending x =>
      simp only [hb, Buffer.request, Option.map_some, Option.some.injEq, Prod.mk.injEq] at hq
      obtain ⟨rfl, rfl⟩ := hq
      exact hb

/-! ## Answering -/

/-- What an answer changes: the port's buffer and the pointer. -/
@[simp] theorem State.port_respond (p q : Port) (c : Command) (a : Answer) :
    (s.respond p c a).port q =
      if q = p then { s.port q with buffer := .ready (Response.make c.code a) } else s.port q := by
  unfold State.respond
  by_cases h : q = p <;> simp [h]

@[simp] theorem State.pointer_respond (p : Port) (c : Command) (a : Answer) :
    (s.respond p c a).pointer = p := rfl

@[simp] theorem State.slot_respond (p : Port) (c : Command) (a : Answer) (i : Fin 16) :
    (s.respond p c a).slot i = s.slot i := rfl

@[simp] theorem State.line_respond (p : Port) (c : Command) (a : Answer) (l : Fin 16) :
    (s.respond p c a).line l = s.line l := rfl

@[simp] theorem State.input_respond (p : Port) (c : Command) (a : Answer) (n : Fin 4) :
    (s.respond p c a).input n = s.input n := rfl

@[simp] theorem State.queue_respond (p : Port) (c : Command) (a : Answer) :
    (s.respond p c a).queue = s.queue := rfl

@[simp] theorem State.clock_respond (p : Port) (c : Command) (a : Answer) :
    (s.respond p c a).clock = s.clock := rfl

@[simp] theorem State.inReset_respond (p : Port) (c : Command) (a : Answer) :
    (s.respond p c a).inReset = s.inReset := rfl

@[simp] theorem State.pending_respond (p : Port) (c : Command) (a : Answer) :
    (s.respond p c a).pending = s.pending := rfl

/-! ## The attention units -/

/-- A port after the attention units: a gap that the event starts has begun, and ATTN_x follows (R141). -/
theorem State.port_attend (before : State) (acked : Option Port) (p : Port) :
    (before.attend acked s).port p =
      { s.port p with
        gap := if before.startsGap s acked p then some 0 else (s.port p).gap
        attn := s.attached p && s.unmaskedPending p
          && (match (s.port p).mode with
              | .level => true
              | .gap => !before.startsGap s acked p && (s.port p).gap.isNone) } := by
  simp only [State.attend, State.port_mapPorts, State.attnLevel, State.attached, State.unmaskedPending,
    State.inReset_mapPorts, State.slot_mapPorts]
  cases hs : before.startsGap s acked p <;> cases hm : (s.port p).mode <;> simp [hm]

@[simp] theorem State.slot_attend (before : State) (acked : Option Port) (i : Fin 16) :
    (before.attend acked s).slot i = s.slot i := rfl

@[simp] theorem State.line_attend (before : State) (acked : Option Port) (l : Fin 16) :
    (before.attend acked s).line l = s.line l := rfl

@[simp] theorem State.input_attend (before : State) (acked : Option Port) (n : Fin 4) :
    (before.attend acked s).input n = s.input n := rfl

@[simp] theorem State.queue_attend (before : State) (acked : Option Port) :
    (before.attend acked s).queue = s.queue := rfl

@[simp] theorem State.clock_attend (before : State) (acked : Option Port) :
    (before.attend acked s).clock = s.clock := rfl

@[simp] theorem State.pointer_attend (before : State) (acked : Option Port) :
    (before.attend acked s).pointer = s.pointer := rfl

@[simp] theorem State.inReset_attend (before : State) (acked : Option Port) :
    (before.attend acked s).inReset = s.inReset := rfl

@[simp] theorem State.choices_attend (before : State) (acked : Option Port) :
    (before.attend acked s).choices = s.choices := rfl

@[simp] theorem State.pending_attend (before : State) (acked : Option Port) :
    (before.attend acked s).pending = s.pending := rfl

/-- No state posts a notice to itself. -/
theorem State.freshlyPosted_self (p : Port) : s.freshlyPosted s p = false := by
  have : ∀ n m : Notices, ((n.minus n).minus m).any = false := by
    intro n m
    obtain ⟨a, b, c, d, e⟩ := n
    cases a <;> cases b <;> cases c <;> cases d <;> cases e <;> rfl
  unfold State.freshlyPosted
  simp only [this]
  cases (s.port p).clockFlag <;> simp [allSlots]

/-- With ATTN as R141 gives it and no accepted ACK, the attention units find nothing to do. -/
theorem State.attend_self (h : AttentionLaw s) : s.attend none s = s := by
  refine State.ext_of_reads (by simp) (by simp) (fun p => ?_) (by simp) rfl rfl rfl rfl rfl rfl
  have hg : s.startsGap s none p = false := by
    simp [State.startsGap, s.freshlyPosted_self]
  have ha := h p
  rw [State.port_attend, hg]
  simp only [Bool.false_eq_true, if_false, Bool.not_false, Bool.true_and]
  rw [State.attnLevel] at ha
  have : ∀ (x : PortState) (b : Bool), x.attn = b → { x with gap := x.gap, attn := b } = x := by
    intro x b hb
    subst hb
    rfl
  exact this _ _ (ha.trans (by cases (s.port p).mode <;> rfl))

/-! ## Lines bound and unbound (R89 to R91) -/

@[simp] theorem State.line_bindLines (i : Fin 16) (lines : LineSet) (l : Fin 16) :
    (s.bindLines i lines).line l =
      if lines.getLsbD l.val then { s.line l with occ := .bound i (.static (s.line l).current) }
      else s.line l := by
  unfold State.bindLines
  rw [State.line_mapLines]
  rfl

@[simp] theorem State.line_unbindVoluntary (i l : Fin 16) :
    (s.unbindVoluntary i).line l =
      if (s.line l).boundSlot = some i then (s.line l).toRest else s.line l := by
  simp [State.unbindVoluntary]

@[simp] theorem State.line_unbindInvoluntary (i l : Fin 16) :
    (s.unbindInvoluntary i).line l =
      if (s.line l).boundSlot = some i then (s.line l).toFault s.clock.count else s.line l := by
  simp [State.unbindInvoluntary]

/-! ## Leases freed, ended and granted (R12 to R14) -/

/-- R12: the slot is FREE at its next generation. -/
theorem State.slot_freeSlot (i j : Fin 16) :
    (s.freeSlot i).slot j = if j = i then (s.slot j).toFree else s.slot j := by
  by_cases h : j = i <;> simp [State.freeSlot, State.dequeue, State.unbindVoluntary, h]

theorem State.line_freeSlot (i l : Fin 16) :
    (s.freeSlot i).line l =
      if (s.line l).boundSlot = some i then (s.line l).toRest else s.line l := by
  simp [State.freeSlot, State.dequeue]

theorem State.queue_freeSlot (i : Fin 16) :
    (s.freeSlot i).queue = s.queue.filter fun j => j ≠ i := by
  simp [State.freeSlot, State.dequeue, State.unbindVoluntary]

/-- R13: the lease is ended, its lines unbound involuntarily, and its place in the queue gone. -/
theorem State.leaseAt_endLease (i j : Fin 16) (c : Cause) :
    (s.endLease i c).leaseAt j = if j = i then (s.leaseAt j).map (Lease.finish c) else s.leaseAt j := by
  unfold State.endLease
  rw [State.leaseAt_updLease]
  rfl

theorem State.line_endLease (i l : Fin 16) (c : Cause) :
    (s.endLease i c).line l =
      if (s.line l).boundSlot = some i then (s.line l).toFault s.clock.count else s.line l := by
  simp [State.endLease, State.dequeue, State.updLease]

theorem State.queue_endLease (i : Fin 16) (c : Cause) :
    (s.endLease i c).queue = s.queue.filter fun j => j ≠ i := by
  simp [State.endLease, State.dequeue, State.updLease, State.unbindInvoluntary]

/-- R14, R40: the granted waiter is ACTIVE, out of the queue, and bound to its lines. -/
theorem State.leaseAt_grantWaiter (i j : Fin 16) (l : Lease) :
    (s.grantWaiter i l).leaseAt j =
      if j = i then
        (s.leaseAt j).map (Lease.grant s.clock.count (s.port l.holder).margin Notices.grantedOnly)
      else s.leaseAt j := by
  unfold State.grantWaiter
  rw [State.leaseAt_updLease]
  rfl

theorem State.line_grantWaiter (i m : Fin 16) (l : Lease) :
    (s.grantWaiter i l).line m =
      if l.lines.getLsbD m.val then { s.line m with occ := .bound i (.static (s.line m).current) }
      else s.line m := by
  simp [State.grantWaiter, State.updLease, State.dequeue]

theorem State.queue_grantWaiter (i : Fin 16) (l : Lease) :
    (s.grantWaiter i l).queue = s.queue.filter fun j => j ≠ i := by
  simp [State.grantWaiter, State.updLease, State.dequeue, State.bindLines]

/-- R39: a step of the walk grants its waiter, or leaves the state. -/
theorem State.scanStep_cases (i : Fin 16) :
    s.scanStep i = s ∨
      ∃ l, s.leaseAt i = some l ∧ l.isWaiting = true ∧ s.orderEligible i = true
        ∧ s.allFree l.lines = true ∧ s.scanStep i = s.grantWaiter i l := by
  unfold State.scanStep
  split
  · rename_i l hl
    split
    · rename_i h
      simp only [Bool.and_eq_true] at h
      exact .inr ⟨l, hl, h.1.1, h.1.2, h.2, rfl⟩
    · exact .inl rfl
  · exact .inl rfl

/-! ## The evaluation of yields (R67, R68) -/

/-- Who calls on whom depends on the queue, on the slots that lines are bound to, and on the line sets,
levels, WAITING states and yieldable settings of the leases: on nothing else. -/
theorem State.calledOn_congr {s t : State} (hq : t.queue = s.queue)
    (hb : ∀ l, (t.line l).boundSlot = (s.line l).boundSlot) (hl : ∀ i, t.linesAt i = s.linesAt i)
    (hw : ∀ i, t.waitingAt i = s.waitingAt i) (hv : ∀ i, t.levelAt i = s.levelAt i)
    (hy : ∀ i n, t.yieldsTo i n = s.yieldsTo i n) (j : Fin 16) : t.calledOn j = s.calledOn j := by
  have hbl : ∀ i w, t.blocks i w = s.blocks i w := by
    intro i w
    simp only [State.blocks, hl, hb]
  have ho : ∀ i, t.orderEligible i = s.orderEligible i := by
    intro i
    simp only [State.orderEligible, hl, hq]
  simp only [State.calledOn, State.justifying, hq, hw, ho, hbl, hv, hy]

/-- R69: what the starts of an evaluation make of each lease. -/
theorem State.leaseAt_startYields (j : Fin 16) :
    s.startYields.leaseAt j = (s.leaseAt j).map fun l =>
      if s.calledOn j then l.startYield (s.ahead (s.port l.holder).window) else l := by
  simp [State.startYields, State.leaseAt]

/-- R72: what the withdrawals of an evaluation make of each lease. -/
theorem State.leaseAt_withdrawYields (j : Fin 16) :
    s.withdrawYields.leaseAt j = (s.leaseAt j).map fun l => if s.calledOn j then l else l.withdraw := by
  simp [State.withdrawYields, State.leaseAt]

@[simp] theorem State.queue_startYields : s.startYields.queue = s.queue := rfl
@[simp] theorem State.line_startYields (l : Fin 16) : s.startYields.line l = s.line l := rfl
@[simp] theorem State.port_startYields (p : Port) : s.startYields.port p = s.port p := rfl
@[simp] theorem State.clock_startYields : s.startYields.clock = s.clock := rfl
@[simp] theorem State.queue_withdrawYields : s.withdrawYields.queue = s.queue := rfl
@[simp] theorem State.line_withdrawYields (l : Fin 16) : s.withdrawYields.line l = s.line l := rfl
@[simp] theorem State.port_withdrawYields (p : Port) : s.withdrawYields.port p = s.port p := rfl
@[simp] theorem State.clock_withdrawYields : s.withdrawYields.clock = s.clock := rfl

/-- A start or a withdrawal leaves what the record needs for calling and being called on. -/
theorem Lease.startYield_fixed (d : Word) (l : Lease) :
    (l.startYield d).lines = l.lines ∧ (l.startYield d).level = l.level
      ∧ (l.startYield d).yieldable = l.yieldable ∧ (l.startYield d).isWaiting = l.isWaiting := by
  cases hp : l.phase <;> simp [Lease.startYield, Lease.isWaiting, hp]

theorem Lease.withdraw_fixed (l : Lease) :
    l.withdraw.lines = l.lines ∧ l.withdraw.level = l.level
      ∧ l.withdraw.yieldable = l.yieldable ∧ l.withdraw.isWaiting = l.isWaiting := by
  cases hp : l.phase <;> simp [Lease.withdraw, Lease.isWaiting, hp]

/-- A change of the leases alone that keeps line set, level, yieldable setting and WAITING keeps who calls on
whom. -/
theorem State.calledOn_of_leases {s t : State} (f : Fin 16 → Lease → Lease) (hq : t.queue = s.queue)
    (hb : ∀ l, t.line l = s.line l) (ht : ∀ i, t.leaseAt i = (s.leaseAt i).map (f i))
    (hf : ∀ i l, (f i l).lines = l.lines ∧ (f i l).level = l.level ∧ (f i l).yieldable = l.yieldable
      ∧ (f i l).isWaiting = l.isWaiting) (j : Fin 16) : t.calledOn j = s.calledOn j := by
  apply State.calledOn_congr hq (fun l => by rw [hb]) <;> intro i
  · simp only [State.linesAt, ht]
    cases s.leaseAt i <;> simp [hf]
  · simp only [State.waitingAt, ht]
    cases s.leaseAt i <;> simp [hf]
  · simp only [State.levelAt, ht]
    cases s.leaseAt i <;> simp [hf]
  · intro n
    simp only [State.yieldsTo, ht]
    cases s.leaseAt i <;> simp [hf]

/-- R68: the starts of step 2 leave who calls on whom. -/
theorem State.calledOn_startYields (j : Fin 16) : s.startYields.calledOn j = s.calledOn j := by
  refine State.calledOn_of_leases
    (fun i l => if s.calledOn i then l.startYield (s.ahead (s.port l.holder).window) else l)
    s.queue_startYields s.line_startYields s.leaseAt_startYields (fun i l => ?_) j
  split
  · exact l.startYield_fixed _
  · exact ⟨rfl, rfl, rfl, rfl⟩

/-- R68: the withdrawals of step 2 leave who calls on whom. -/
theorem State.calledOn_withdrawYields (j : Fin 16) : s.withdrawYields.calledOn j = s.calledOn j := by
  refine State.calledOn_of_leases (fun i l => if s.calledOn i then l else l.withdraw)
    s.queue_withdrawYields s.line_withdrawYields s.leaseAt_withdrawYields (fun i l => ?_) j
  split
  · exact ⟨rfl, rfl, rfl, rfl⟩
  · exact l.withdraw_fixed

/-- Where the yields are settled, an evaluation starts none. -/
theorem State.startingYields_of_yieldLaw (h : YieldLaw s) : s.startingYields = [] := by
  unfold State.startingYields
  rw [List.filter_eq_nil_iff]
  intro j _ hj
  simp only [Bool.and_eq_true] at hj
  exact absurd hj.2 (by simp [(h j).1 hj.1])

/-- A map over the slots that leaves each slot as it stands leaves the state. -/
theorem State.mapSlots_of_fixed (f : Fin 16 → Slot → Slot) (h : ∀ j, f j (s.slot j) = s.slot j) :
    s.mapSlots f = s := by
  apply State.ext_of_reads
  · intro j
    rw [State.slot_mapSlots, h]
  all_goals simp

/-- A slot whose lease a map leaves stands as it stood. -/
theorem Slot.with_lease_map_of_fixed (x : Slot) (f : Lease → Lease) (h : ∀ l, x.lease = some l → f l = l) :
    { x with lease := x.lease.map f } = x := by
  obtain ⟨gen, lease⟩ := x
  cases lease with
  | none => rfl
  | some l => simp only [Option.map_some, h l rfl]

/-- Where the yields are settled, an evaluation leaves every lease as it starts yields. -/
theorem State.startYields_of_yieldLaw (h : YieldLaw s) : s.startYields = s := by
  refine s.mapSlots_of_fixed _ fun j => Slot.with_lease_map_of_fixed _ _ fun l hl => ?_
  have hlease : s.leaseAt j = some l := hl
  cases hp : l.phase with
  | active g =>
    have h1 : s.calledOn j = false := (h j).1 (by simp [State.activeAt, hlease, Lease.state, hp])
    simp [h1]
  | waiting d => simp [Lease.startYield, hp]
  | yielding g d => simp [Lease.startYield, hp]
  | ended n c => simp [Lease.startYield, hp]

/-- Where the yields are settled, an evaluation withdraws nothing. -/
theorem State.withdrawYields_of_yieldLaw (h : YieldLaw s) : s.withdrawYields = s := by
  refine s.mapSlots_of_fixed _ fun j => Slot.with_lease_map_of_fixed _ _ fun l hl => ?_
  have hlease : s.leaseAt j = some l := hl
  cases hp : l.phase with
  | yielding g d =>
    have h2 : s.calledOn j = true := (h j).2 (by simp [State.yieldingAt, hlease, Lease.state, hp])
    simp [h2]
  | waiting d => simp [Lease.withdraw, hp]
  | active g => simp [Lease.withdraw, hp]
  | ended n c => simp [Lease.withdraw, hp]

/-- R24, R68: where the yields are settled, an event without a scan settles to the state it found. -/
theorem State.settle_of_yieldLaw (h : YieldLaw s) : s.settle false = (s, []) := by
  simp [State.settle, Config.settleRounds, State.evaluate, s.startingYields_of_yieldLaw h,
    s.startYields_of_yieldLaw h, s.withdrawYields_of_yieldLaw h]

/-- R24: a refusal changes the port's buffer and the pointer, and nothing else. -/
theorem State.refuse_eq_respond (hy : YieldLaw s) (ha : AttentionLaw s) (p : Port) (c : Command) (a : Answer) :
    s.refuse p c a = s.respond p c a := by
  simp [State.refuse, State.conclude, s.settle_of_yieldLaw hy, s.attend_self ha]

/-! ## The tick (R116, R121) -/

@[simp] theorem State.clock_tickTaken (hb : BitVec 4) : (s.tickTaken hb).clock = s.clock.tickMade := by
  simp [State.tickTaken]

@[simp] theorem State.line_tickTaken (hb : BitVec 4) (l : Fin 16) :
    (s.tickTaken hb).line l = (s.line l).tick := by
  simp [State.tickTaken]

@[simp] theorem State.input_tickTaken (hb : BitVec 4) (n : Fin 4) :
    (s.tickTaken hb).input n =
      { (s.input n).sample (hb.getLsbD n.val) with pin := hb.getLsbD n.val } := by
  simp [State.tickTaken]

@[simp] theorem State.slot_tickTaken (hb : BitVec 4) (i : Fin 16) : (s.tickTaken hb).slot i = s.slot i := by
  simp [State.tickTaken]

@[simp] theorem State.queue_tickTaken (hb : BitVec 4) : (s.tickTaken hb).queue = s.queue := by
  simp [State.tickTaken]

@[simp] theorem State.port_tickTaken (hb : BitVec 4) (p : Port) : (s.tickTaken hb).port p = s.port p := by
  simp [State.tickTaken]

@[simp] theorem State.pointer_tickTaken (hb : BitVec 4) : (s.tickTaken hb).pointer = s.pointer := by
  simp [State.tickTaken]

@[simp] theorem State.inReset_tickTaken (hb : BitVec 4) : (s.tickTaken hb).inReset = s.inReset := by
  simp [State.tickTaken]

@[simp] theorem State.choices_tickTaken (hb : BitVec 4) : (s.tickTaken hb).choices = s.choices := by
  simp [State.tickTaken]

@[simp] theorem State.pending_tickTaken (hb : BitVec 4) : (s.tickTaken hb).pending = s.pending := by
  simp [State.tickTaken]

/-- R120, R125: where a tick can be made, the clock has a source, and the tick advances the lease clock by one. -/
theorem State.count_tickTaken (h : s.tickReady = true) (hb : BitVec 4) :
    (s.tickTaken hb).clock.count = s.clock.count + 1 := by
  rw [State.clock_tickTaken]
  unfold Clock.tickMade
  split <;> rename_i hs
  · rfl
  · rfl
  · simp [State.tickReady, Clock.frozen, hs] at h

/-- R116: what an edge of REFCLK can do in REFERENCE: it is counted, and where it completes a tick that can be
made, that tick is made. -/
theorem execRefclkEdge_reference (hr : s.inReset = false) (hs : s.clock.state = .reference) :
    execRefclkEdge s =
      let counted := (s.updClock Clock.edgeSeen).updClock fun c => { c with tick := c.tick.map TickProgress.count }
      .next (if counted.tickComplete then counted.tickTaken counted.pins else counted) := by
  simp [execRefclkEdge, hr, hs]

/-! ## The CRC and the bits of a frame (R145, R149) -/

/-- A check register closed by its own value is 0. -/
theorem crcByte_self (r : Byte) : crcByte r r = 0 := by
  simp [crcByte, crcShift]

/-- The CRC over bytes and their own CRC is 0. -/
theorem crcOf_closed (bytes : List Byte) : crcOf (bytes ++ [crcOf bytes]) = 0 := by
  simp only [crcOf, List.foldl_append, List.foldl_cons, List.foldl_nil]
  exact crcByte_self _

/-- The bits of bytes are eight to the byte. -/
@[simp] theorem length_frameBits (bytes : List Byte) : (frameBits bytes).length = 8 * bytes.length := by
  induction bytes with
  | nil => rfl
  | cons b bs ih =>
    have h : frameBits (b :: bs) = byteBits b ++ frameBits bs := rfl
    rw [h, List.length_append, ih, List.length_cons]
    simp only [byteBits, List.length_cons, List.length_nil]
    omega

/-- Eight bits clocked in, most significant first, are the byte they came from. -/
theorem byteOfBits_byteBits (b : Byte) :
    byteOfBits (b.getLsbD 7) (b.getLsbD 6) (b.getLsbD 5) (b.getLsbD 4) (b.getLsbD 3) (b.getLsbD 2)
      (b.getLsbD 1) (b.getLsbD 0) = b := by
  revert b
  decide +kernel

/-- The receiver finds the bytes that the sender clocked out, and then what follows them. -/
theorem bytesOfBits_frameBits (bytes : List Byte) (more : List Bool) :
    bytesOfBits (frameBits bytes ++ more) = bytes ++ bytesOfBits more := by
  induction bytes with
  | nil => rfl
  | cons b bs ih =>
    simp only [frameBits, List.flatMap_cons, byteBits, List.cons_append, List.nil_append, bytesOfBits,
      byteOfBits_byteBits]
    congr 1

end Sys2Proof.Machine
end

