-- ==== Sys2Proof/WellFormed.lean ====
section
/-! DEFINITION. Which commands name things that the part has: slots 0 to 15, lines L0 to L15 and inputs HB0 to HB3. -/

namespace Sys2Proof

/-- A command is well formed when the slot, line or heartbeat input it names exists (R1, chapter 5, R107).
Every other operand ranges over what its type holds. -/
def Instr.wellFormed : Instr → Bool
  | .renewalClaim n => n < 4
  | .expiry i | .waitDeadline i | .yieldDeadline i | .warningEvent i => i < 16
  | .quarantineDeadline l => l < 16
  | .selnFall _ | .transactionRelease _ _ | .acquire | .renew | .release | .cancel | .drive | .query
  | .list | .ack | .mask | .time | .lines | .status | .setLine | .setPort | .setHeartbeat | .setClock
  | .resume | .revoke | .detach | .attach | .peek | .softReset | .tick _ | .lossEvent
  | .qualificationEvent | .gapEnd _ | .penChange _ _ | .deviceReset | .resetRelease _ _
  | .refclkEdge => true

end Sys2Proof
end

