-- ==== Sys2Proof/Tests/Slice0.lean ====
section
/-! SUPPORT. Tests from the spec's own examples, and a concrete state for the hypotheses of every statement. -/

namespace Sys2Proof.Tests

open Sys2Proof.Machine

set_option Elab.async false

/-! ## Small states -/

/-- The state that an outcome answers. -/
def after (o : Host.Outcome State Fault Refusal) : State :=
  match o with
  | .next t => t
  | .fault _ | .refused _ => State.reset

/-- The outcome is a next state. -/
def goesOn (o : Host.Outcome State Fault Refusal) : Bool :=
  match o with
  | .next _ => true
  | .fault _ | .refused _ => false

theorem next_of_goesOn {o : Host.Outcome State Fault Refusal} (h : goesOn o = true) : ∃ t, o = .next t := by
  cases o with
  | next t => exact ⟨t, rfl⟩
  | fault r => cases r
  | refused r => cases h

/-- The part released from reset with every port enabled and every heartbeat pin low. -/
def running : State := after (exec (.resetRelease 0 0b1111) State.reset)

/-- A lease of port `p` on `lines`, with term 1000, in the given phase. -/
def lease (p : Port) (lines : LineSet) (level : Fin 4) (phase : Phase) : Lease :=
  { holder := p, tag := 0x5A, lines := lines, level := level, yieldable := false, term := 1000,
    waitLimit := none, source := none, cap := none, flags := {}, phase := phase }

/-- What a lease holds, with this expiry and no renewal. -/
def held (expiry : Word) : Holding := { expiry := expiry, count := 0, warned := false }

/-- The slot at generation `gen` given a lease: a holder's lines are bound, a waiter goes to the tail. -/
def put (s : State) (i : Fin 16) (gen : Byte) (l : Lease) : State :=
  let t := s.updSlot i fun _ => { gen := gen, lease := some l }
  if l.isWaiting then t.setQueue (t.queue ++ [i]) else if l.isEnded then t else t.bindLines i l.lines

/-- ATTN_x of every port as R141 gives it. -/
def attended (s : State) : State := s.mapPorts fun p x => { x with attn := s.attnLevel p }

/-- Port `p`'s buffer PENDING with a request. -/
def asks (s : State) (p : Port) (r : Request) : State := s.updPort p fun x => { x with buffer := .pending r }

/-- The clock in REFERENCE at a count. -/
def atCount (s : State) (n : Word) : State :=
  s.updClock fun c => { c with state := .reference, present := true, count := n, tick := some TickProgress.reference }

/-- The data of the answer in port `p`'s buffer, status first. -/
def answer (s : State) (p : Port) : Option (Status × List Byte) :=
  match (s.port p).buffer with
  | .ready r => some (r.status, r.data)
  | .empty | .pending _ => none

/-- A board with a lease in every state: slot 0 (B) YIELDING on L0, called on by slot 1 (A) WAITING; slot 2
(C) ACTIVE on L1 and L2 with a pulse on L1; slot 3 (D) ENDED, with L3 in QUARANTINE. -/
def board : State :=
  let s := atCount running 20000
  let s := put s 0 0 { lease .B 0x0001 0 (.yielding (held 20900) 20100) with
    yieldable := true, flags := { yield := true } }
  let s := put s 1 7 { lease .A 0x0001 2 (.waiting (some 20030)) with waitLimit := some 50 }
  let s := put s 2 0 { lease .C 0x0006 1 (.active (held 20500)) with source := some 1, cap := some 3 }
  let s := put s 3 9 { lease .D 0x0008 1 (.ended 2 .expired) with flags := { ended := true } }
  let s := s.mapLines fun l x =>
    if l = 3 then { x with occ := .quarantine 20010, qlen := 16, fault := .high, current := .high }
    else if l = 1 then { x with
      occ := .bound 2 (.pulse { activeHigh := true, delay := 2, onTime := 1, period := 3, origin := 19996, k := some 4 })
      current := .low }
    else x
  attended s

theorem board_lawful : Lawful board where
  binding := by decide +kernel
  queue := by decide +kernel
  self := by decide +kernel
  quota := by intro p; cases p <;> decide +kernel
  flags := by decide +kernel
  drive := by decide +kernel
  attention := by intro p; cases p <;> decide +kernel
  detached := by intro p; cases p <;> decide +kernel
  privilege := by
    refine ⟨?_, by decide +kernel⟩
    intro p; cases p <;> decide +kernel
  yields := by decide +kernel
  grants := by decide +kernel
  clock := by decide +kernel
  heartbeat := by decide +kernel
  range := by
    refine ⟨by decide +kernel, ?_⟩
    intro p; cases p <;> decide +kernel
  deadline := by decide +kernel
  pulse := by decide +kernel
  reset := by intro h; exact absurd h (by decide +kernel)
  settings := by intro h; exact absurd h (by decide +kernel)

/-- A command of the part run on a state. -/
def run (c : Instr) (s : State) : State := after (exec c s)

/-- A request in a buffer changes none of the laws that the statements about requests assume. -/
theorem asks_laws (s : State) (p : Port) (r : Request)
    (h : BindingLaw s ∧ QueueLaw s ∧ YieldLaw s ∧ AttentionLaw s) :
    BindingLaw (asks s p r) ∧ QueueLaw (asks s p r) ∧ YieldLaw (asks s p r) ∧ AttentionLaw (asks s p r) := by
  refine ⟨h.1, h.2.1, h.2.2.1, fun q => ?_⟩
  have hq := h.2.2.2 q
  simp only [asks, State.attnLevel, State.attached, State.unmaskedPending, State.port_updPort,
    State.inReset_updPort, State.slot_updPort] at hq ⊢
  by_cases hp : q = p <;> simp_all

/-- The arguments of an ACQUIRE that wants no option. -/
def args (mode : Byte) (lines : LineSet) (level : Byte) (term : Ticks) : AcquireArgs :=
  { mode := mode, lines := lines, level := level, options := 0, term := term, tag := 0x5A, waitLimit := 0,
    source := 0, cap := 0 }

/-! ## Well-formed commands -/

theorem test_wellFormed_claim : Instr.wellFormed (.renewalClaim 3) = true
    ∧ Instr.wellFormed (.renewalClaim 4) = false := by decide
theorem test_wellFormed_expiry : Instr.wellFormed (.expiry 15) = true
    ∧ Instr.wellFormed (.expiry 16) = false := by decide
theorem test_wellFormed_waitDeadline : Instr.wellFormed (.waitDeadline 15) = true
    ∧ Instr.wellFormed (.waitDeadline 16) = false := by decide
theorem test_wellFormed_yieldDeadline : Instr.wellFormed (.yieldDeadline 15) = true
    ∧ Instr.wellFormed (.yieldDeadline 16) = false := by decide
theorem test_wellFormed_warningEvent : Instr.wellFormed (.warningEvent 15) = true
    ∧ Instr.wellFormed (.warningEvent 16) = false := by decide
theorem test_wellFormed_quarantineDeadline : Instr.wellFormed (.quarantineDeadline 15) = true
    ∧ Instr.wellFormed (.quarantineDeadline 16) = false := by decide

/-- The table gives no row any bits, so no word spells a command. -/
theorem test_no_word_spells_a_command : decodeTableWord 8 0x16 = none := by decide

/-! ## The step, the queue of commands and what the part does by itself -/

/-- For `StepRunsFrontCommand`, and for every statement that a step keeps a law: a lawful board with a
command at the front, which the step takes. -/
def boardStep (c : Instr) : State := { board with pending := [c, .list] }

theorem witness_StepRunsFrontCommand : (boardStep (.tick 2)).pending = .tick 2 :: [.list] := rfl

/-- The laws say nothing of the commands that wait. -/
theorem lawful_withPending (s : State) (h : Lawful s) (q : List Instr) : Lawful { s with pending := q } :=
  { h with }

theorem boardStep_lawful (c : Instr) : Lawful (boardStep c) := lawful_withPending board board_lawful _

theorem witness_EveryCommandIsTaken :
    (board.inReset = false ∧ (run .deviceReset board).inReset = true)
      ∧ State.reset.inReset = true ∧ (run (.resetRelease 0 0b1111) State.reset).inReset = false := by
  decide +kernel

/-- For the laws: a TICK, the end of a lease, a grant and a device reset from the lawful board. -/
theorem witness_laws_kept : ∀ c ∈ [Instr.tick 2, .expiry 0, .softReset, .deviceReset],
    Lawful (boardStep c) ∧ ∃ t, step (boardStep c) = .next t := by
  intro c hc
  refine ⟨boardStep_lawful c, ?_⟩
  fin_cases hc <;> exact next_of_goesOn (by decide +kernel)

/-- For `AttentionLawKept`, `DetachedPortLawKept` and `ClockBlockLawKept`: the part held in reset. -/
theorem witness_ResetLaw : State.reset.inReset = true ∧ ResetLaw State.reset ∧ ResetSettingsLaw State.reset
    ∧ ∃ t, step State.reset = .next t := by
  refine ⟨rfl, fun _ => ⟨by decide +kernel, rfl, by decide +kernel, rfl, rfl, ?_⟩,
    fun _ => ⟨?_, by decide +kernel⟩, _, rfl⟩ <;> intro p <;> cases p <;> decide +kernel

/-- For `IdlePartActsByItself`: events stand open (the yield deadline of slot 0 at 20100); none stands open;
the part is in reset. -/
theorem witness_IdlePartActsByItself :
    ((atCount board 20100).pending = [] ∧ (atCount board 20100).openEvents = [.yieldDeadline 0])
      ∧ (running.pending = [] ∧ running.openEvents = [] ∧ running.inReset = false)
      ∧ State.reset.pending = [] ∧ State.reset.inReset = true := by
  decide +kernel

/-- For `LocalTickTakesThousandPeriods`: the part as the release leaves it, in START with a local tick begun. -/
theorem witness_LocalTickTakesThousandPeriods :
    (running.inReset = false ∧ running.pending = [] ∧ running.openEvents = []
        ∧ ([Port.A, .B, .C, .D].all fun q => (running.port q).gap.isNone) = true)
      ∧ running.clock.present = false ∧ running.clock.silence ≤ 256 ∧ running.clock.state = .start
      ∧ running.clock.tick = some { counted := 0, length := 1000 } := by
  decide +kernel

/-- R122: the silence count stays at 256; R118: the local tick counts the period. -/
theorem test_idle_period_counts :
    (after (step (running.updClock fun c => { c with silence := 256 }))).clock.silence = 256
      ∧ (after (step running)).clock.tick = some { counted := 1, length := 1000 } := by
  decide +kernel

/-- For `LeaseClockAdvancesByTicks`: a tick that can be made, with the clock about to return to 0; and a clock
frozen under FREEZE, where none can. -/
theorem witness_LeaseClockAdvancesByTicks :
    let s := atCount running 0xFFFFFFFF
    let frozen := running.updClock fun c => { c with state := .fallback, policy := .freeze, tick := none }
    (s.inReset = false ∧ s.eventsOpen = false ∧ s.clock.state = .reference ∧ (run (.tick 0) s).clock.count = 0)
      ∧ (frozen.clock.state = .fallback ∧ frozen.clock.policy = .freeze
        ∧ (run (.tick 0) frozen).clock.count = frozen.clock.count)
      ∧ (run .deviceReset s).clock.count = 0 := by
  decide +kernel

/-! ## The scan, the evaluation and the gaps -/

/-- Chapter 2, "two grants in one walk": the table and queue once port A's slot 0 has freed L0, L1 and L2. -/
def walk : State :=
  let s := atCount running 500
  let s := put s 1 0 (lease .B 0x0001 2 (.waiting none))
  let s := put s 2 0 (lease .C 0x0021 2 (.waiting none))
  let s := put s 3 0 (lease .D 0x0006 1 (.waiting none))
  put s 4 0 (lease .B 0x0020 0 (.waiting none))

/-- The example's result: slots 1 and 3 granted, slot 4 held back behind slot 2. -/
theorem test_scan_two_grants_in_one_walk :
    walk.grantScan.queue = [2, 4] ∧ walk.grantScan.activeAt 1 = true ∧ walk.grantScan.activeAt 3 = true
      ∧ (walk.grantScan.line 0).boundSlot = some 1 ∧ (walk.grantScan.line 5).boundSlot = none := by
  decide +kernel

/-- For `ScanGrantsExactly`: slot 1 is granted and slot 4 is not. -/
theorem witness_ScanGrantsExactly : QueueLaw walk ∧ BindingLaw walk
    ∧ (walk.leaseAt 1 = some (lease .B 0x0001 2 (.waiting none)) ∧ walk.orderEligible 1 = true
      ∧ walk.allFree 0x0001 = true)
    ∧ ¬(walk.waitingAt 4 = true ∧ walk.orderEligible 4 = true ∧ walk.allFree (walk.linesAt 4) = true) := by
  decide +kernel

/-- Slot 0 (B, yieldable, level 0) holds L0 under a yield window of 0, and slot 1 (A, level 2) waits for it. -/
def zeroWindow : State :=
  let s := (atCount running 500).updPort .B fun x => { x with window := 0 }
  let s := put s 0 0 { lease .B 0x0001 0 (.active (held 900)) with yieldable := true }
  put s 1 0 (lease .A 0x0001 2 (.waiting none))

/-- For `ZeroWindowPreemptsAtOnce`; and the waiter is granted within the event (R41). -/
theorem witness_ZeroWindowPreemptsAtOnce :
    (0 ∈ (zeroWindow.settle false).2
        ∧ zeroWindow.leaseAt 0 = some { lease .B 0x0001 0 (.active (held 900)) with yieldable := true }
        ∧ (zeroWindow.port .B).window = 0)
      ∧ (zeroWindow.settle false).1.activeAt 1 = true := by
  decide +kernel

/-- Chapter 8, "attention in GAP mode": port C in GAP mode, with GRANTED pending in slot 2 and ATTN_C
asserted. -/
def gapBoard : State :=
  let s := (atCount running 500).updPort .C fun x => { x with mode := .gap, margin := 100 }
  attended (put s 2 7 { lease .C 0x0200 1 (.active (held 600)) with
    flags := { granted := true, warning := false } })

/-- The example: the warning event begins a gap, the loss posts CLOCK without restarting it, and its end
asserts ATTN_C again. -/
theorem test_gap_mode_example :
    let s := run (.warningEvent 2) gapBoard
    let t := run .lossEvent s
    ((gapBoard.port .C).attn = true ∧ (s.port .C).gap = some 0 ∧ (s.port .C).attn = false)
      ∧ ((t.port .C).gap = some 0 ∧ (t.port .C).clockFlag = true)
      ∧ ((run (.gapEnd .C) t).port .C).gap = none ∧ ((run (.gapEnd .C) t).port .C).attn = true := by
  decide +kernel

/-- The ACK that leaves a notice pending begins a gap; the one that leaves none begins none. -/
theorem test_gap_after_ack :
    let s := (gapBoard.updPort .C fun x => { x with clockFlag := true })
    ((run .ack (asks s .C (.ack 2 7 0x03))).port .C).gap = some 0
      ∧ ((run .ack (asks gapBoard .C (.ack 2 7 0x03))).port .C).gap = none := by
  decide +kernel

/-- For `GapsBeginAndEnd`: no gap runs, and one does. -/
theorem witness_GapsBeginAndEnd :
    ((gapBoard.port .C).gap = none ∧ gapBoard.freshlyPosted (run (.warningEvent 2) gapBoard) .C = true
        ∧ ∃ t, exec (.warningEvent 2) gapBoard = .next t)
      ∧ ((run (.warningEvent 2) gapBoard).inReset = false ∧ AttentionLaw (run (.warningEvent 2) gapBoard)
        ∧ ((run (.warningEvent 2) gapBoard).port .C).gap = some 0) := by
  refine ⟨⟨by decide +kernel, by decide +kernel, next_of_goesOn (by decide +kernel)⟩, by decide +kernel, ?_,
    by decide +kernel⟩
  intro p; cases p <;> decide +kernel

/-! ## Transactions and request frames -/

/-- Port `p` in a transaction that shifts out `copy`. -/
def shifting (s : State) (p : Port) (copy : Buffer) : State :=
  s.updPort p fun x => { x with transaction := .shifting copy }

/-- R146, R148: an EMPTY buffer reads A0h, then FFh; a detached port's MISO_x is at high impedance. -/
theorem test_selnFall_reads_state_byte :
    ((run (.selnFall .B) running).misoByte .B 0 = some 0xA0 ∧ (run (.selnFall .B) running).misoByte .B 1 = some 0xFF)
      ∧ (run (.selnFall .B) State.reset).misoByte .B 0 = none := by
  decide +kernel

/-- For `SelnFallTakesCopy`: an attached port, and a detached one. -/
theorem witness_SelnFallTakesCopy :
    ((running.port .B).transaction = .idle ∧ running.attached .B = true)
      ∧ (State.reset.port .B).transaction = .idle ∧ State.reset.attached .B = false := by
  decide +kernel

/-- Chapter 9, "the CRC of a LIST request": FEh closes 16h 00h, and FFh is answered FORMAT with detail CRC. -/
theorem test_list_frame_example : crcOf [0x16, 0x00] = 0xFE
    ∧ ((run (.transactionRelease .B (frameBits [0x16, 0x00, 0xFE])) (shifting running .B .empty)).port .B).buffer
      = .pending .list
    ∧ answer (run (.transactionRelease .B (frameBits [0x16, 0x00, 0xFF])) (shifting running .B .empty)) .B
      = some (.format, [0x02]) := by
  decide +kernel

/-- R157: the frame of an ACQUIRE with the argument bytes written out. -/
theorem test_acquire_frame_layout :
    ((run (.transactionRelease .C (frameBits
        ([0x10, 12, 0x02, 0x80, 0x01, 0x03, 0x0F, 0x01, 0xF4, 0x77, 0x00, 0x64, 0x02, 0x05]
          ++ [crcOf [0x10, 12, 0x02, 0x80, 0x01, 0x03, 0x0F, 0x01, 0xF4, 0x77, 0x00, 0x64, 0x02, 0x05]])))
      (shifting running .C .empty)).port .C).buffer
      = .pending (.acquire
        { mode := 2, lines := 0x8001, level := 3, options := 0x0F, term := 500, tag := 0x77, waitLimit := 100,
          source := 2, cap := 5 }) := by
  decide +kernel

/-- For `TransactionsThatChangeNothing`: an ignored transaction; seven bits; a NOP; a copy that was PENDING. -/
theorem witness_TransactionsThatChangeNothing :
    ((run (.selnFall .B) State.reset).port .B).transaction = .ignored
      ∧ ((shifting running .B .empty).port .B).transaction = .shifting .empty
      ∧ (List.replicate 7 true).length < 8 ∧ (∃ more, List.replicate 9 false = byteBits 0 ++ more)
      ∧ (∃ r, ((shifting running .B (.pending .list)).port .B).transaction = .shifting (.pending r)) := by
  refine ⟨by decide +kernel, by decide +kernel, by decide, ⟨[false], by decide⟩, .list, by decide +kernel⟩

/-- What a request of port B leaves in its buffer. -/
def received (p : Port) (bytes : List Byte) (extra : List Bool) : Buffer :=
  ((run (.transactionRelease p (frameBits bytes ++ extra)) (shifting running p .empty)).port p).buffer

/-- For `ReceiverChecksInOrder`: a state that its hypotheses hold in, and each check at the edge of its range:
no length byte; a length of 25; one of 24 with 24 bytes after it, and with 25; a wrong CRC; an unknown code; a
length the command does not take; a supervisor command on port B and on port A; bits after the last byte. -/
theorem witness_ReceiverChecksInOrder :
    (((shifting running .B .empty).port .B).transaction = .shifting .empty ∧ Buffer.empty.request = none)
      ∧ received .B [0x16] [true] = .ready (Response.make 0x16 { status := .format, data := [0x01] })
      ∧ received .B [0x16, 25] [] = .ready (Response.make 0x16 { status := .format, data := [0x03] })
      ∧ received .B (0x16 :: 24 :: List.replicate 24 0) []
        = .ready (Response.make 0x16 { status := .format, data := [0x01] })
      ∧ received .B (0x16 :: 24 :: List.replicate 24 0 ++ [crcOf (0x16 :: 24 :: List.replicate 24 0)]) []
        = .ready (Response.make 0x16 { status := .format, data := [0x03] })
      ∧ received .B [0x16, 0, 0xFD] [] = .ready (Response.make 0x16 { status := .format, data := [0x02] })
      ∧ received .B [0x1C, 0, crcOf [0x1C, 0]] [] = .ready (Response.make 0x1C { status := .unknown })
      ∧ received .B [0x44, 0, crcOf [0x44, 0]] [] = .ready (Response.make 0x44 { status := .privilege })
      ∧ received .A [0x44, 0, crcOf [0x44, 0]] (List.replicate 7 true) = .pending .resume := by
  decide +kernel

/-- For `RequestFrameRoundTrip`: any port may send a RENEW, and port A a SOFT_RESET. -/
theorem witness_RequestFrameRoundTrip :
    (((shifting running .D .empty).port .D).transaction = .shifting .empty ∧ Buffer.empty.request = none
        ∧ (Request.renew { slot := 3, gen := 41 } 100).command.supervisor = false)
      ∧ received .D (Request.renew { slot := 3, gen := 41 } 100).frame [true]
        = .pending (.renew { slot := 3, gen := 41 } 100)
      ∧ received .A Request.softReset.frame [] = .pending .softReset := by
  decide +kernel

/-- For `ResponseFrameIsClosed`: a READY copy, an EMPTY one and a PENDING one. -/
theorem witness_ResponseFrameIsClosed :
    ((shifting running .B (.ready (Response.make 0x19 { status := .ok, data := [1, 2] }))).port .B).transaction
        = .shifting (.ready (Response.make 0x19 { status := .ok, data := [1, 2] }))
      ∧ ((shifting running .B .empty).port .B).transaction = .shifting .empty
      ∧ ((shifting running .B (.pending .list)).port .B).transaction = .shifting (.pending .list) := by
  decide +kernel

/-- For `MisoBitsLeaveMsbFirst`: the state byte A0h of an EMPTY copy leaves as 1, 0, 1 and five 0 bits, then 1;
an idle port's MISO_x is at high impedance. -/
theorem witness_MisoBitsLeaveMsbFirst :
    let s := shifting running .B .empty
    ((s.port .B).transaction = .shifting .empty ∧ (running.port .B).transaction.isShifting = false)
      ∧ (List.range 10).map (fun n => s.misoBit .B n)
        = [true, false, true, false, false, false, false, false, true, true].map some
      ∧ running.misoBit .B 0 = none := by
  decide +kernel

/-! ## Arbitration -/

/-- Chapter 9, "three ports at one engine": with the pointer at A, ports B, C and D are taken in turn. -/
theorem test_round_robin_example :
    let s := asks (asks (asks (running.setPointer .A) .D .time) .C .lines) .B .status
    let t := run .status s
    (s.nextRequest = some (.B, .status) ∧ t.nextRequest = some (.C, .lines))
      ∧ (run .lines t).nextRequest = some (.D, .time)
      ∧ (run .lines (asks t .B .list)).nextRequest = some (.D, .time) := by
  decide +kernel

/-- For `RoundRobinTakesFirstPending` and `EveryRequestIsAnswered`: a request is next; and in reset none is. -/
theorem witness_EveryRequestIsAnswered :
    (asks board .C .list).nextRequest = some (.C, .list) ∧ (asks State.reset .C .list).nextRequest = none := by
  decide +kernel

/-- For `EventsThatDoNotArise`, clause by clause: on the board at 20000 nothing is due, port A has no gap, every
PEN_x is HIGH, every SELN_x is high, no claim waits, and the request that is next is a LIST. -/
theorem witness_EventsThatDoNotArise :
    ((asks board .C .list).nextRequest = some (.C, .list) ∧ Request.list.instr ≠ Request.time.instr)
      ∧ (∀ i, board.expiryDue i = false ∧ board.waitDue i = false ∧ board.yieldDue i = false
          ∧ board.warningDue i = false ∧ board.quarantineDue i = false)
      ∧ (board.input 3).claims = 0 ∧ (board.port .A).gap = none ∧ (board.port .A).pen = true
      ∧ (board.port .A).transaction = .idle ∧ board.inReset = false
      ∧ (run (.selnFall .A) board |>.port .A).transaction ≠ .idle := by
  decide +kernel

/-! ## ACQUIRE, CANCEL and the wait deadline -/

/-- Chapter 11.1 before the first event: slot 0 (D) holds L1, port C's yield window is 200, and L0 and L1 have
quarantine lengths 8 and 16. -/
def contention : State :=
  let s := (atCount running 20000).updPort .C fun x => { x with window := 200 }
  let s := s.mapLines fun l x => if l = 0 then { x with qlen := 8 } else if l = 1 then { x with qlen := 16 } else x
  attended (put s 0 0 (lease .D 0x0002 1 (.active (held 30000))))

/-- An ACQUIRE of port `p` taken on a state. -/
def acquires (s : State) (p : Port) (a : AcquireArgs) : State := run .acquire (asks s p (.acquire a))

/-- The state of 11.1 at 20030, with B WAITING in slot 1 and C ACTIVE in slot 2 on L2. -/
def contention2 : State :=
  atCount
    (acquires (atCount (acquires contention .B (args 2 0x0003 1 1000)) 20010) .C
      { args 2 0x0004 0 500 with options := 1 }) 20020

/-- 11.1 at 20000 and 20010: B is answered QUEUED in position 1, and C is granted at once. -/
theorem test_acquire_sequence_11_1 :
    answer contention2 .B = some (.queued, [1, 0, 0x01, 0, 0, 1, 0])
      ∧ answer contention2 .C = some (.ok, [2, 0, 0x02, 0x01, 0xF4, 0, 0]) ∧ contention2.queue = [1]
      ∧ (contention2.line 2).boundSlot = some 2 ∧ (contention2.line 0).boundSlot = none := by
  decide +kernel

/-- 11.1 at 20020 and 20030: the TRY is CONFLICT, order-blocked and not line-blocked; the WAIT is queued in
position 2. -/
theorem test_acquire_try_and_wait_11_1 :
    answer (acquires contention2 .C (args 1 0x0001 0 500)) .C = some (.conflict, [0x01])
      ∧ answer (acquires contention2 .C (args 2 0x0001 0 500)) .C = some (.queued, [3, 0, 0x01, 0, 0, 2, 0])
      ∧ (acquires contention2 .C (args 2 0x0001 0 500)).queue = [1, 3] := by
  decide +kernel

/-- `contention2` with L9 closed to port B. -/
def closedLine : State :=
  contention2.mapLines fun l x => if l = 9 then { x with access := 0b1101 } else x

/-- `contention2` with port B's quota at its slot use. -/
def quotaUsed : State := contention2.updPort .B fun x => { x with quota := 1 }

/-- For `AcquireChecksInOrder`, the ranges at their limits: a term of 7 and of 8; a level of 4; a wait limit on
a TRY; and a level above the port's ceiling. -/
theorem witness_AcquireChecksInOrder_range :
    (asks contention2 .B (.acquire (args 2 1 0 7))).nextRequest = some (.B, .acquire (args 2 1 0 7))
      ∧ AcquireOutOfRange (args 2 0x0001 0 7) ∧ ¬AcquireOutOfRange (args 2 0x0200 2 8)
      ∧ AcquireOutOfRange (args 2 0x0001 4 8)
      ∧ AcquireOutOfRange { args 1 1 0 8 with options := 2, waitLimit := 1 }
      ∧ answer (acquires contention2 .B (args 2 0x0001 0 7)) .B = some (.range, [])
      ∧ answer (acquires contention2 .B (args 2 0x0200 2 8)) .B = some (.level, []) := by
  refine ⟨?_, ?_, ?_, ?_, ?_, ?_, ?_⟩ <;> decide +kernel

/-- For its later checks: a line closed to the port, the port's own lease, and the quota in use. -/
theorem witness_AcquireChecksInOrder_later :
    (SomeLineClosed closedLine .B 0x0200
        ∧ answer (acquires closedLine .B (args 2 0x0200 1 8)) .B = some (.denied, []))
      ∧ (SelfAt contention2 .B 0x0001 1
        ∧ answer (acquires contention2 .B (args 2 0x0001 1 8)) .B = some (.self, [1, 0]))
      ∧ (quotaUsed.port .B).quota ≤ quotaUsed.slotUse .B
      ∧ answer (acquires quotaUsed .B (args 2 0x0200 1 8)) .B = some (.quota, [1, 1]) := by
  refine ⟨by decide +kernel, ⟨⟨lease .B 0x0003 1 (.waiting none), ?_⟩, ?_⟩, ?_⟩ <;> decide +kernel

/-- A table with no FREE slot: sixteen ENDED leases of port B, whose quota is 16. -/
def fullTable : State :=
  (running.updPort .B fun x => { x with quota := 16 }).mapSlots fun _ x =>
    { x with lease := some (lease .B 0x0001 1 (.ended 0 .expired)) }

/-- For the last check of `AcquireChecksInOrder`: port C finds the table FULL. -/
theorem witness_AcquireChecksInOrder_full :
    (∀ i : Fin 16, fullTable.leaseAt i ≠ none) ∧ fullTable.slotUse .C < (fullTable.port .C).quota
      ∧ answer (acquires fullTable .C (args 2 0x0200 1 8)) .C = some (.full, []) := by
  decide +kernel

/-- For `TryBlockedIsConflict`: order-blocked alone, line-blocked alone, and both. -/
theorem witness_TryBlockedIsConflict :
    (AcquirePasses contention2 .C (args 1 0x0001 0 500)
        ∧ (asks contention2 .C (.acquire (args 1 0x0001 0 500))).nextRequest
          = some (.C, .acquire (args 1 0x0001 0 500)))
      ∧ (OrderBlocked contention2 0x0001 0 ∧ ¬LineBlocked contention2 0x0001)
      ∧ (AcquirePasses contention2 .A (args 1 0x0004 0 500) ∧ ¬OrderBlocked contention2 0x0004 0
        ∧ LineBlocked contention2 0x0004)
      ∧ AcquirePasses contention2 .C (args 1 0x0002 1 500) ∧ OrderBlocked contention2 0x0002 1
      ∧ LineBlocked contention2 0x0002 := by
  refine ⟨?_, ?_, ?_, ?_⟩ <;> decide +kernel

/-- For `AcquireGrantsAtOnce`: a free line, no waiter for it, and slot 3 the lowest FREE one. -/
theorem witness_AcquireGrantsAtOnce :
    (asks contention2 .A (.acquire (args 1 0x0200 3 8))).nextRequest = some (.A, .acquire (args 1 0x0200 3 8))
      ∧ AcquirePasses contention2 .A (args 1 0x0200 3 8) ∧ LowestFree contention2 3
      ∧ ¬OrderBlocked contention2 0x0200 3 ∧ ¬LineBlocked contention2 0x0200
      ∧ answer (acquires contention2 .A (args 1 0x0200 3 8)) .A = some (.ok, [3, 0, 0x02, 0, 8, 0, 0]) := by
  decide +kernel

/-- 11.2 at 20200, and for `AcquireWaitIsQueued`: port A's level 3 for L2 enters ahead of the level-1 waiter and
starts the yield of slot 2. -/
theorem witness_AcquireWaitIsQueued :
    let a := args 2 0x0004 3 2000
    GrantLaw (asks contention2 .A (.acquire a)) ∧ ((asks contention2 .A (.acquire a)).nextRequest = some (.A, .acquire a)
        ∧ AcquirePasses contention2 .A a ∧ LowestFree contention2 3 ∧ LineBlocked contention2 0x0004
        ∧ (contention2.port .A).window ≠ 0 ∧ (contention2.port .B).window ≠ 0
        ∧ (contention2.port .C).window ≠ 0 ∧ (contention2.port .D).window ≠ 0)
      ∧ answer (acquires contention2 .A a) .A = some (.queued, [3, 0, 0x01, 0, 0, 1, 0x01])
      ∧ (acquires contention2 .A a).queue = [3, 1] := by
  refine ⟨?_, ?_, ?_⟩ <;> decide +kernel

/-- R32, R33, R41, R76, and for `AcquireWaitIsQueued` under a yield window of 0: its one blocker ends PREEMPTED, the
lines go straight to FREE, and the new lease, answered QUEUED, stands ACTIVE with GRANTED pending. -/
theorem witness_AcquireWaitIsQueued_zeroWindow :
    let s := (zeroWindow.updSlot 1 fun x => { x with lease := none }).setQueue []
    let a := args 2 0x0003 2 1000
    let t := acquires s .A a
    ((asks s .A (.acquire a)).nextRequest = some (.A, .acquire a) ∧ AcquirePasses s .A a ∧ LowestFree s 1
        ∧ LineBlocked s 0x0003)
      ∧ GrantLaw (asks s .A (.acquire a)) ∧ YieldLaw s ∧ BindingLaw s ∧ QueueLaw s
      ∧ ((t.leaseAt 1).map (fun l => (l.phase, l.flags)) = some (.active (held 1500), { granted := true })
        ∧ (t.leaseAt 0).map Lease.cause = some (some .preempted))
      ∧ answer t .A = some (.queued, [1, 0, 0x02, 0x03, 0xE8, 0, 0x01]) := by
  refine ⟨?_, ?_, ?_, ?_, ?_, ?_, ?_⟩ <;> decide +kernel

/-- 11.1 at 20100: the release of slot 0 grants slot 1 both its lines. -/
theorem test_release_grants_waiter_11_1 :
    let s := run .release (asks (atCount contention2 20100) .D (.release { slot := 0, gen := 0 }))
    (s.slot 0 = { gen := 1, lease := none } ∧ answer s .D = some (.ok, []))
      ∧ (s.leaseAt 1).map (fun l => (l.phase, l.flags))
        = some (.active (held 21100), { granted := true })
      ∧ (s.line 0).boundSlot = some 1 ∧ (s.line 1).boundSlot = some 1 := by
  decide +kernel

/-- 11.2 at 20250 to 20300: a RENEW in the yield window is answered YIELDING; a DRIVE is taken; the release sends
the line OFF to slot 3. -/
theorem test_yield_window_sequence_11_2 :
    let s := atCount (acquires (atCount contention2 20200) .A (args 2 0x0004 3 2000)) 20250
    let t := run .release (asks (atCount s 20300) .C (.release { slot := 2, gen := 0 }))
    answer (run .renew (asks s .C (.renew { slot := 2, gen := 0 } 0))) .C = some (.yielding, [1, 4, 0, 150])
      ∧ ((run .drive (asks s .C (.drive { slot := 2, gen := 0 } 0x0004 0 0 0 0))).line 2).current = .low
      ∧ ((t.line 2).boundSlot = some 3 ∧ (t.line 2).current = .off) := by
  decide +kernel

/-! ## Commands that name a handle -/

theorem board_laws : BindingLaw board ∧ QueueLaw board ∧ YieldLaw board ∧ AttentionLaw board :=
  ⟨board_lawful.binding, board_lawful.queue, board_lawful.yields, board_lawful.attention⟩

/-- Chapter 1, "one slot through three leases": slot 3 at generation 42 holds port C's waiter. -/
def threeLeases : State := put (put running 0 0 (lease .A 0x0001 3 (.active (held 900)))) 3 42 (lease .C 0x0001 1 (.waiting none))

/-- The example: QUERY 3/41 from B is STALE, QUERY 3/42 is NOT_HOLDER, and C's CANCEL frees the slot at 43. -/
theorem test_handles_example :
    answer (run .query (asks threeLeases .B (.query { slot := 3, gen := 41 }))) .B = some (.stale, [])
      ∧ answer (run .query (asks threeLeases .B (.query { slot := 3, gen := 42 }))) .B = some (.notHolder, [])
      ∧ (run .cancel (asks threeLeases .C (.cancel { slot := 3, gen := 42 }))).slot 3 = { gen := 43, lease := none } := by
  decide +kernel

/-- For `HandleChecksInOrder`: slot 16; a FREE slot 15; another generation; another port's lease. -/
theorem witness_HandleChecksInOrder :
    ((asks board .D (.query { slot := 16, gen := 0 })).nextRequest = some (.D, .query { slot := 16, gen := 0 })
        ∧ (Request.query { slot := 16, gen := 0 }).handle = some { slot := 16, gen := 0 })
      ∧ answer (run .query (asks board .D (.query { slot := 16, gen := 0 }))) .D = some (.range, [])
      ∧ (board.leaseAt 15 = none
        ∧ answer (run .query (asks board .D (.query { slot := 15, gen := 0 }))) .D = some (.stale, []))
      ∧ ((board.slot 3).gen ≠ 8
        ∧ answer (run .query (asks board .D (.query { slot := 3, gen := 8 }))) .D = some (.stale, []))
      ∧ (Current board { slot := 2, gen := 0 } 2 ((board.leaseAt 2).getD (lease .A 1 0 (.waiting none)))
        ∧ answer (run .drive (asks board .D (.drive { slot := 2, gen := 0 } 2 0 0 0 0))) .D = some (.notHolder, []))
      ∧ answer (run .revoke (asks board .A (.revoke { slot := 2, gen := 0 }))) .A = some (.ok, [2, 2]) := by
  refine ⟨?_, ?_, ?_, ?_, ?_, ?_⟩ <;> decide +kernel

/-- `board` with slot 2 at its renewal cap of 3. -/
def atCap : State :=
  board.updLease 2 fun l => { l with phase := .active { held 20500 with count := 3 } }

/-- For `StateRefusalsChangeNothing`: a RELEASE of a waiter, a RENEW of a YIELDING lease, one at the cap, and a
CANCEL of an ENDED lease, answered with its cause, as is port A's REVOKE of it. -/
theorem witness_StateRefusalsChangeNothing :
    ((Request.release { slot := 1, gen := 7 }).stateRefused .waiting = true
        ∧ (board.leaseAt 1).map Lease.state = some .waiting
        ∧ (asks board .A (.release { slot := 1, gen := 7 })).nextRequest = some (.A, .release { slot := 1, gen := 7 })
        ∧ answer (run .release (asks board .A (.release { slot := 1, gen := 7 }))) .A = some (.state, [1, 0]))
      ∧ ((board.leaseAt 0).map Lease.phase = some (.yielding (held 20900) 20100)
        ∧ answer (run .renew (asks board .B (.renew { slot := 0, gen := 0 } 0))) .B
          = some (.yielding, [3, 132, 0, 100]))
      ∧ ((atCap.leaseAt 2).map Lease.phase = some (.active { held 20500 with count := 3 })
        ∧ answer (run .renew (asks atCap .C (.renew { slot := 2, gen := 0 } 8))) .C = some (.limit, [3, 1, 244]))
      ∧ answer (run .cancel (asks board .D (.cancel { slot := 3, gen := 9 }))) .D = some (.state, [4, 1])
      ∧ answer (run .revoke (asks board .A (.revoke { slot := 3, gen := 9 }))) .A = some (.state, [4, 1]) := by
  refine ⟨?_, ?_, ?_, ?_, ?_⟩ <;> decide +kernel

/-- For `ArgumentsOutOfRangeAreRefused`: a new term of 7 on a handle that is STALE too; a kind of 5, and a pulse
with its on time equal to its period; and an ACK of kind bit 6. -/
theorem witness_ArgumentsOutOfRangeAreRefused :
    ((asks board .D (.renew { slot := 15, gen := 0 } 7)).nextRequest = some (.D, .renew { slot := 15, gen := 0 } 7)
        ∧ answer (run .renew (asks board .D (.renew { slot := 15, gen := 0 } 7))) .D = some (.range, []))
      ∧ answer (run .drive (asks board .C (.drive { slot := 2, gen := 0 } 2 5 0 1 2))) .C = some (.range, [])
      ∧ answer (run .drive (asks board .C (.drive { slot := 2, gen := 0 } 2 4 0 2 2))) .C = some (.range, [])
      ∧ answer (run .ack (asks board .D (.ack 3 9 0x50))) .D = some (.range, []) := by
  decide +kernel

/-! ## Terms, renewal and the ends of leases -/

/-- Chapter 3, "a term with a warning, a renewal and a lost race", at a clock value: port B's margin is 50, and
slot 6 holds L4 with this record. L4 has a quarantine length of 20. -/
def termExample (clock : Word) (term : Ticks) (h : Holding) (flags : Notices) : State :=
  let s := (atCount running clock).updPort .B fun x => { x with margin := 50 }
  let s := s.mapLines fun l x => if l = 4 then { x with qlen := 20 } else x
  attended (put s 6 9 { lease .B 0x0010 1 (.active h) with
    term := term, cap := some 2, source := some 1, flags := flags })

/-- 10150: the warning event; 10300: RENEW with new term 100; 10400: the expiry sends L4 to quarantine. -/
theorem test_term_example :
    (((run (.warningEvent 6) (termExample 10150 200 (held 10200) { granted := true })).leaseAt 6).map Lease.flags
        = some { granted := true, warning := true })
      ∧ ((run .renew (asks (termExample 10300 200 { held 10370 with count := 1 } {}) .B
          (.renew { slot := 6, gen := 9 } 100))).leaseAt 6).map Lease.phase
        = some (.active { expiry := 10400, count := 2, warned := false })
      ∧ ((run (.expiry 6) (termExample 10400 100 { held 10400 with count := 2, warned := true }
          { warning := true })).line 4).occ = .quarantine 10420 := by
  decide +kernel

/-- For `RenewStartsFreshTerm`: below the cap of 2 with one renewal taken; and the answer. -/
theorem witness_RenewStartsFreshTerm :
    let s := termExample 10300 200 { held 10370 with count := 1 } {}
    ((asks s .B (.renew { slot := 6, gen := 9 } 8)).nextRequest = some (.B, .renew { slot := 6, gen := 9 } 8)
        ∧ (s.leaseAt 6).map Lease.phase = some (.active { held 10370 with count := 1 })
        ∧ (s.leaseAt 6).map Lease.cap = some (some 2) ∧ YieldLaw (asks s .B (.renew { slot := 6, gen := 9 } 8)))
      ∧ answer (run .renew (asks s .B (.renew { slot := 6, gen := 9 } 8))) .B
        = some (.ok, [6, 9, 0, 8, 0, 8, 2, 0, 1]) := by
  refine ⟨⟨?_, ?_, ?_, ?_⟩, ?_⟩ <;> decide +kernel

/-- Chapter 6, "one edge, several leases", at clock 8000 with a claim of HB1 waiting. -/
def claims : State :=
  let hb := fun (p : Port) (set : LineSet) (term : Ticks) (cap : Option Byte) (phase : Phase) =>
    { lease p set 0 phase with term := term, source := some 1, cap := cap }
  let s := (atCount running 8000).mapInputs fun n x => if n = 1 then { x with claims := 1 } else x
  let s := put s 1 0 (hb .B 0x0001 300 none (.active { held 8040 with count := 5 }))
  let s := put s 3 0 (hb .C 0x0002 500 (some 4) (.active { held 8100 with count := 4 }))
  put s 9 0 (hb .D 0x0008 300 none (.active (held 8250)))

/-- The example: slots 1 and 9 are renewed, slot 3 at its cap is passed over. -/
theorem test_claim_example :
    ((run (.renewalClaim 1) claims).leaseAt 1).map Lease.phase = some (.active { held 8300 with count := 6 })
      ∧ ((run (.renewalClaim 1) claims).leaseAt 3).map Lease.phase = some (.active { held 8100 with count := 4 })
      ∧ ((run (.renewalClaim 1) claims).leaseAt 9).map Lease.phase = some (.active { held 8300 with count := 1 }) := by
  decide +kernel

/-- For `ClaimRenewsEveryMatchingLease`: a claim waits, slot 9 matches, and slot 3 is at its cap. -/
theorem witness_ClaimRenewsEveryMatchingLease :
    (claims.inReset = false ∧ 0 < (claims.input 1).claims ∧ YieldLaw claims)
      ∧ (claims.leaseAt 9).map (fun l => (l.phase, l.source, l.cap)) = some (.active (held 8250), some 1, none)
      ∧ (claims.leaseAt 3).map (fun l => (l.cap, l.count)) = some (some 4, some 4)
      ∧ ((run (.renewalClaim 1) claims).input 1).claims = 0 := by
  decide +kernel

/-- For `ReleaseAndCancelFreeSlot`: the release of a YIELDING lease, which grants its waiter, and the cancel of
that waiter, which withdraws the yield. -/
theorem witness_ReleaseAndCancelFreeSlot :
    ((asks board .B (.release { slot := 0, gen := 0 })).nextRequest = some (.B, .release { slot := 0, gen := 0 })
        ∧ (board.leaseAt 0).map Lease.holding = some (some (held 20900))
        ∧ ((run .release (asks board .B (.release { slot := 0, gen := 0 }))).line 0).boundSlot = some 1)
      ∧ ((asks board .A (.cancel { slot := 1, gen := 7 })).nextRequest = some (.A, .cancel { slot := 1, gen := 7 })
        ∧ (board.leaseAt 1).map Lease.isWaiting = some true
        ∧ ((run .cancel (asks board .A (.cancel { slot := 1, gen := 7 }))).leaseAt 0).map (fun l => (l.phase, l.flags))
          = some (.active (held 20900), { withdrawn := true })) := by
  decide +kernel

/-- For R72 and R74: slot 0 (B) is YIELDING to slot 1 (A). Port C's slot 2, under a yield window of 0, blocks
slots 3 and 4 (D), which wait behind slot 1; slot 4's level is not above it. -/
def yieldStands : State :=
  let s := (atCount running 500).updPort .C fun x => { x with window := 0 }
  let s := put s 0 0 { lease .B 0x0010 0 (.yielding (held 900) 600) with
    yieldable := true, flags := { yield := true } }
  let s := put s 2 0 { lease .C 0x0003 1 (.active (held 900)) with yieldable := true }
  let s := put s 1 0 (lease .A 0x0014 3 (.waiting none))
  let s := put s 3 0 (lease .D 0x0005 2 (.waiting none))
  attended (put s 4 0 (lease .D 0x0012 1 (.waiting none)))

/-- The CANCEL of slot 1 has slot 2 end PREEMPTED for slot 3, after which slot 4 calls on slot 0: called on before
and after the event, slot 0 keeps its yield deadline, and nothing is posted to it. -/
theorem test_yield_stands_through_event :
    let t := run .cancel (asks yieldStands .A (.cancel { slot := 1, gen := 0 }))
    (YieldLaw yieldStands ∧ QueueLaw yieldStands)
      ∧ (t.leaseAt 2).map Lease.cause = some (some .preempted) ∧ t.activeAt 3 = true ∧ t.queue = [4]
      ∧ t.slot 0 = yieldStands.slot 0 := by
  refine ⟨?_, ?_⟩ <;> decide +kernel

/-- For `RevokeEndsAnyLease`: port A revokes port C's lease; its lines, of quarantine length 0, go to FREE. -/
theorem witness_RevokeEndsAnyLease :
    let s := run .revoke (asks board .A (.revoke { slot := 2, gen := 0 }))
    ((asks board .A (.revoke { slot := 2, gen := 0 })).nextRequest = some (.A, .revoke { slot := 2, gen := 0 })
        ∧ (board.leaseAt 2).map Lease.isEnded = some false)
      ∧ (s.leaseAt 2).map (fun l => (l.phase, l.flags)) = some (.ended 0 .revoked, { ended := true })
      ∧ (s.line 1).isFree = true := by
  decide +kernel

/-- For `DeadlinesEndLeases`: the clock at the yield deadline, the wait deadline and the expiry of the board's
leases. -/
theorem witness_DeadlinesEndLeases :
    ((board.leaseAt 0).map Lease.phase = some (.yielding (held 20900) 20100)
        ∧ (atCount board 20100).inReset = false
        ∧ ((run (.yieldDeadline 0) (atCount board 20100)).leaseAt 0).map Lease.phase = some (.ended 0 .preempted)
        ∧ ((run (.yieldDeadline 0) (atCount board 20100)).line 0).boundSlot = some 1)
      ∧ ((board.leaseAt 1).map Lease.phase = some (.waiting (some 20030))
        ∧ ((run (.waitDeadline 1) (atCount board 20030)).leaseAt 1).map Lease.phase = some (.ended 0 .waitExpired))
      ∧ ((board.leaseAt 2).map Lease.holding = some (some (held 20500))
        ∧ ((run (.expiry 2) (atCount board 20500)).leaseAt 2).map Lease.phase = some (.ended 0 .expired)) := by
  refine ⟨?_, ?_, ?_⟩ <;> decide +kernel

/-- For `WarningEventWarnsOnce`: 50 ticks left under a margin of 50, and not yet warned. -/
theorem witness_WarningEventWarnsOnce :
    let s := termExample 10150 200 (held 10200) { granted := true }
    (s.leaseAt 6).map Lease.holding = some (some (held 10200)) ∧ (s.port .B).margin = 50
      ∧ (10200 - s.clock.count).toNat ≤ (s.port .B).margin.toNat ∧ s.inReset = false ∧ YieldLaw s := by
  refine ⟨?_, ?_, ?_, ?_, ?_⟩ <;> decide +kernel

/-! ## Notices -/

/-- For `AckClearsNamedFlags`: an ACK of ENDED on an ENDED lease, one that names another kind alone, and one of
the port's CLOCK flag. -/
theorem witness_AckClearsNamedFlags :
    let s := run .ack (asks board .D (.ack 3 9 0x10))
    let t := run .ack (asks board .B (.ack 0 0 0x04))
    let c := board.updPort .C fun x => { x with clockFlag := true }
    ((asks board .D (.ack 3 9 0x10)).nextRequest = some (.D, .ack 3 9 0x10)
        ∧ (board.leaseAt 3).map (fun l => (l.isEnded, l.holder)) = some (true, .D)
        ∧ s.slot 3 = { gen := 10, lease := none } ∧ answer s .D = some (.ok, [0, 0]))
      ∧ ((t.leaseAt 0).map Lease.flags = some {} ∧ answer t .B = some (.ok, [3, 0]) ∧ (t.port .B).attn = false)
      ∧ ((asks c .C (.ack 0xFF 0 0x20)).nextRequest = some (.C, .ack 0xFF 0 0x20) ∧ YieldLaw c
        ∧ answer (run .ack (asks c .C (.ack 0xFF 0 0x20))) .C = some (.ok, [1])) := by
  refine ⟨?_, ?_, ?_⟩ <;> decide +kernel

/-- R136: the ranges of an ACK's kinds. -/
theorem test_ack_ranges :
    answer (run .ack (asks board .B (.ack 0 0 0))) .B = some (.range, [])
      ∧ answer (run .ack (asks board .B (.ack 0 0 0x20))) .B = some (.range, [])
      ∧ answer (run .ack (asks board .B (.ack 0xFF 0 0x21))) .B = some (.range, []) := by
  decide +kernel

/-- For `MaskReplacesMaskAndMode`: kinds of 64 and a mode of 2 are out of range; 63 and 1 are in range. -/
theorem witness_MaskReplacesMaskAndMode :
    (asks board .B (.mask 0x3F 1)).nextRequest = some (.B, .mask 0x3F 1)
      ∧ answer (run .mask (asks board .B (.mask 0x40 1))) .B = some (.range, [])
      ∧ answer (run .mask (asks board .B (.mask 0x3F 2))) .B = some (.range, [])
      ∧ answer (run .mask (asks board .B (.mask 0x3F 1))) .B = some (.ok, [0x3F, 1])
      ∧ ((run .mask (asks board .B (.mask 0x3F 1))).port .B).attn = false := by
  decide +kernel

/-! ## Lines -/

/-- Chapter 5, "lines through an involuntary end", at 4020: L10 in QUARANTINE to 4042, L11 FREE, and C waiting in
slot 5 for both. -/
def linesExample : State :=
  let s := (atCount running 4020).mapLines fun l x =>
    if l = 10 then { x with occ := .quarantine 4042, rest := .low, fault := .off, qlen := 30, current := .off }
    else if l = 11 then { x with rest := .low, fault := .low, current := .low }
    else x
  put s 5 0 (lease .C 0x0C00 1 (.waiting none))

/-- SET_LINE of L10's rest drive leaves its pin, and the quarantine deadline grants slot 5 with the drives HIGH
and LOW. -/
theorem test_lines_example :
    let s := run .setLine (asks linesExample .A (.setLine 0x0400 0b1110 1 0 0 0))
    let t := run (.quarantineDeadline 10) (atCount s 4042)
    ((s.line 10).current = .off ∧ (s.line 10).rest = .high)
      ∧ (t.line 10).occ = .bound 5 (.static .high) ∧ (t.line 11).occ = .bound 5 (.static .low)
      ∧ t.activeAt 5 = true := by
  decide +kernel

/-- For `QuarantineEndsAtDeadline`. -/
theorem witness_QuarantineEndsAtDeadline :
    (atCount linesExample 4042).inReset = false
      ∧ ((atCount linesExample 4042).line 10).occ = .quarantine (atCount linesExample 4042).clock.count
      ∧ BindingLaw (atCount linesExample 4042) ∧ QueueLaw (atCount linesExample 4042) := by
  decide +kernel

/-- Chapter 5, "a pulse pattern through a freeze": port C's slot 4 on L7 and L8, at clock 3000. -/
def pulseExample : State := put (atCount running 3000) 4 0 (lease .C 0x0180 1 (.active (held 9000)))

/-- The DRIVE of the example taken, then `n` ticks. -/
def pulseAfter (n : Nat) : State :=
  (List.replicate n (Instr.tick 0)).foldl (fun s c => run c s)
    (run .drive (asks pulseExample .C (.drive { slot := 4, gen := 0 } 0x0180 3 2 3 5)))

/-- The example's levels at 3000, 3002, 3003, 3005, 3006 and 3008. -/
theorem test_pulse_example :
    ((pulseAfter 0).line 7).current = .low ∧ ((pulseAfter 2).line 7).current = .low
      ∧ ((pulseAfter 3).line 7).current = .high ∧ ((pulseAfter 5).line 8).current = .high
      ∧ ((pulseAfter 6).line 7).current = .low ∧ ((pulseAfter 8).line 7).current = .high := by
  decide +kernel

/-- For `DriveOrdersNamedLines`: each static kind; a pulse with on-time one below its period; and a line outside
the set. -/
theorem witness_DriveOrdersNamedLines :
    let h : Handle := { slot := 4, gen := 0 }
    let drives := fun (set : LineSet) (kind on period : Byte) =>
      run .drive (asks pulseExample .C (.drive h set kind 0 on period))
    ((asks pulseExample .C (.drive h 0x0080 4 0 1 2)).nextRequest = some (.C, .drive h 0x0080 4 0 1 2)
        ∧ Current pulseExample h 4 (lease .C 0x0180 1 (.active (held 9000)))
        ∧ (0x0080 : LineSet) &&& ~~~(0x0180 : LineSet) = 0)
      ∧ (((drives 0x0080 0 0 0).line 7).current = .low ∧ ((drives 0x0080 1 0 0).line 7).current = .high
        ∧ ((drives 0x0080 2 0 0).line 7).current = .off)
      ∧ (((drives 0x0080 4 1 2).line 7).current = .high ∧ ((drives 0x0080 4 1 2).line 8).current = .off)
      ∧ answer (drives 0x0240 0 0 0) .C = some (.range, [0x02, 0x40])
      ∧ answer (drives 0x0080 3 2 2) .C = some (.range, []) := by
  refine ⟨?_, ?_, ?_, ?_, ?_⟩ <;> decide +kernel

/-- For `SetLineAppliesSettings`: an empty set and a drive of 3 are out of range; a kept drive of 3 is not
checked; a FREE line's pin takes the new rest drive. -/
theorem witness_SetLineAppliesSettings :
    (asks board .A (.setLine 0x8000 0 2 0 5 0xF1)).nextRequest = some (.A, .setLine 0x8000 0 2 0 5 0xF1)
      ∧ answer (run .setLine (asks board .A (.setLine 0 0 0 0 0 0))) .A = some (.range, [])
      ∧ answer (run .setLine (asks board .A (.setLine 1 0 3 0 0 0))) .A = some (.range, [])
      ∧ answer (run .setLine (asks board .A (.setLine 1 1 3 2 0 0))) .A = some (.ok, [])
      ∧ (run .setLine (asks board .A (.setLine 0x8000 0 1 0 5 0xF1))).line 15
        = { occ := .free, rest := .high, fault := .low, qlen := 5, access := 0b0001, current := .high } := by
  decide +kernel

/-! ## Ports and resets -/

/-- For `SetPortAppliesSettings`: port 4, a quota of 17 and a margin of 4096 are out of range; a quota below the
slot use is STATE; a margin of 4095 is applied and warns port C's lease. -/
theorem witness_SetPortAppliesSettings :
    (asks board .A (.setPort 2 0 1 3 4095 0)).nextRequest = some (.A, .setPort 2 0 1 3 4095 0)
      ∧ answer (run .setPort (asks board .A (.setPort 4 0 1 3 0 0))) .A = some (.range, [])
      ∧ answer (run .setPort (asks board .A (.setPort 2 0 17 3 0 0))) .A = some (.range, [])
      ∧ answer (run .setPort (asks board .A (.setPort 2 0 16 3 4096 0))) .A = some (.range, [])
      ∧ (board.slotUse .C = 1 ∧ answer (run .setPort (asks board .A (.setPort 2 0 0 3 0 0))) .A = some (.state, []))
      ∧ ((run .setPort (asks board .A (.setPort 2 0 1 3 4095 0))).leaseAt 2).map Lease.flags
        = some { warning := true } := by
  decide +kernel

/-- R56, R164: with slot 2's warning event open, a SET_PORT that keeps the margin posts no WARNING, and one that
applies it does. -/
theorem test_set_port_margin_kept :
    let s := board.updPort .C fun x => { x with margin := 1000 }
    s.warningDue 2 = true
      ∧ ((run .setPort (asks s .A (.setPort 2 0b0100 1 3 0 256))).leaseAt 2).map Lease.flags = some {}
      ∧ ((run .setPort (asks s .A (.setPort 2 0 1 3 1000 256))).leaseAt 2).map Lease.flags
        = some { warning := true } := by
  decide +kernel

/-- Chapter 11.5: port D detached with work in flight, at clock 40000. -/
def inFlight : State :=
  let s := (atCount running 40000).mapLines fun l x => if l = 6 then { x with qlen := 20 } else x
  let s := s.updPort .D fun x => { x with clockFlag := true, quota := 4 }
  let s := put s 1 0 (lease .B 0x0100 1 (.active (held 50000)))
  let s := put s 4 2 { lease .D 0x00C0 1 (.active (held 50000)) with yieldable := true }
  let s := put s 5 0 (lease .D 0x0100 1 (.waiting none))
  let s := put s 6 0 { lease .B 0x0080 1 (.waiting none) with term := 400 }
  attended (asks (put s 7 0 (lease .C 0x0100 0 (.waiting none))) .D (.renew { slot := 4, gen := 2 } 0))

/-- The sequence's table: slots 4 and 5 FREE, L6 in QUARANTINE to 40020, slot 6 granted L7, the queue 7, and
port D silent. -/
theorem test_detach_sequence_11_5 :
    let s := run (.penChange .D false) inFlight
    (s.slot 4 = { gen := 3, lease := none } ∧ s.slot 5 = { gen := 1, lease := none } ∧ s.queue = [7])
      ∧ ((s.line 6).occ = .quarantine 40020 ∧ (s.line 7).boundSlot = some 6
        ∧ (s.leaseAt 6).map (fun l => (l.phase, l.flags)) = some (.active (held 40400), { granted := true }))
      ∧ ((s.port .D).buffer = .empty ∧ (s.port .D).clockFlag = false ∧ (s.port .D).attn = false) := by
  decide +kernel

/-- For `DetachTakesPortAway`: port D attached, by its pin and by a DETACH from port A. -/
theorem witness_DetachTakesPortAway :
    (inFlight.attached .D = true ∧ BindingLaw inFlight ∧ QueueLaw inFlight ∧ YieldLaw inFlight)
      ∧ (asks inFlight .A (.detach (portByte .D))).nextRequest = some (.A, .detach (portByte .D))
      ∧ (run .detach (asks inFlight .A (.detach (portByte .D)))).slot 4 = { gen := 3, lease := none } := by
  refine ⟨⟨?_, ?_, ?_, ?_⟩, ?_, ?_⟩ <;> decide +kernel

/-- Ports A to C attached and port D not. -/
def withoutD : State := run (.resetRelease 0 0b0111) State.reset

/-- For `AttachmentItemsChangeAlone`: an ATTACH, a DETACH of the detached port D, a DETACH of port A, a port value
of 4, and a rise of PEN_D. -/
theorem witness_AttachmentItemsChangeAlone :
    let d := run .detach (asks withoutD .A (.detach 3))
    (withoutD.attached .D = false ∧ withoutD.inReset = false ∧ (withoutD.port .D).pen = false)
      ∧ ((asks withoutD .A (.detach 3)).nextRequest = some (.A, .detach (portByte .D))
        ∧ (d.port .D).cmdDetach = true ∧ (run (.penChange .D true) d).attached .D = false)
      ∧ (run .attach (asks (run (.penChange .D true) d) .A (.attach 3))).attached .D = true
      ∧ answer (run .detach (asks withoutD .A (.detach 0))) .A = some (.state, [])
      ∧ answer (run .detach (asks withoutD .A (.detach 4))) .A = some (.range, [])
      ∧ answer (run .attach (asks withoutD .A (.attach 4))) .A = some (.range, []) := by
  decide +kernel

theorem withoutD_laws : YieldLaw withoutD ∧ AttentionLaw withoutD ∧ DetachedLaw withoutD := by
  refine ⟨by decide +kernel, ?_, ?_⟩ <;> (intro p; cases p <;> decide +kernel)

/-- For `SoftResetClearsTableAndLines`: every slot FREE at its next generation, the quarantine ended. -/
theorem witness_SoftResetClearsTableAndLines :
    let s := run .softReset (asks board .A .softReset)
    (asks board .A .softReset).nextRequest = some (.A, .softReset)
      ∧ (s.slot 1 = { gen := 8, lease := none } ∧ s.slot 15 = { gen := 0, lease := none } ∧ s.queue = [])
      ∧ ((s.line 3).isFree = true ∧ (s.line 3).current = .off ∧ (s.line 3).fault = .high)
      ∧ s.clock.count = 20000 ∧ answer s .A = some (.ok, []) := by
  decide +kernel

/-- For `DeviceResetAndRelease`: the release samples the pins (R177). -/
theorem witness_DeviceResetAndRelease :
    State.reset.inReset = true
      ∧ ((run (.resetRelease 0b0100 0b0001) (run .deviceReset board)).input 2).level = true
      ∧ (run (.resetRelease 0b0100 0b0001) (run .deviceReset board)).attached .A = true
      ∧ (run (.resetRelease 0b0100 0b0001) (run .deviceReset board)).attached .B = false := by
  decide +kernel

/-! ## Reports -/

/-- For `QueryAndPeekReportRecord`: the QUERY of the board's waiter, byte by byte from R158, and the PEEK of a
FREE slot and of slot 16. -/
theorem witness_QueryAndPeekReportRecord :
    answer (run .query (asks board .A (.query { slot := 1, gen := 7 }))) .A
        = some (.ok, [1, 7, 1, 0x5A, 0, 1, 2, 0, 0x03, 0xE8, 0, 50, 0xFF, 0, 0, 0, 1, 0, 0, 0, 30, 0, 0])
      ∧ answer (run .peek (asks board .A (.peek 15))) .A = some (.ok, [15, 0, 0])
      ∧ answer (run .peek (asks board .A (.peek 16))) .A = some (.range, [])
      ∧ answer (run .peek (asks board .A (.peek 1))) .A
        = some (.ok, [1, 7, 1, 0, 0x5A, 0, 1, 2, 0, 0x03, 0xE8, 0, 50, 0xFF, 0, 0, 0, 1, 1]
          ++ [0, 0, 0, 0] ++ [0, 0, 0x4E, 0x3E] ++ [0, 0, 0, 0] ++ [0, 0, 0x4E, 0x20]) := by
  decide +kernel

/-- For `ListTimeLinesStatusReport`, from R158 and R159: port D's ENDED lease, the frozen clock of 11.4, port
A's STATUS. -/
theorem witness_ListTimeLinesStatusReport :
    let frozen := board.updClock fun c => { c with state := .fallback, policy := .freeze, present := false, tick := none }
    answer (run .list (asks board .D .list)) .D = some (.ok, [0x34, 9, 0x30, 0x5A, 0])
      ∧ answer (run .time (asks frozen .A .time)) .A = some (.ok, [0, 0, 0x4E, 0x20, 2, 0x08, 0, 0, 0xFF, 0xFF])
      ∧ answer (run .time (asks board .A .time)) .A = some (.ok, [0, 0, 0x4E, 0x20, 1, 0x03, 0, 0, 0xFF, 0xFE])
      ∧ answer (run .status (asks board .A .status)) .A = some (.ok, [1, 0, 0x0F, 4, 1, 3, 0, 0, 1, 0]) := by
  decide +kernel

/-- LINES of the board: L0 bound to B and OFF, L1 a PULSE_HIGH of C, L3 in QUARANTINE for 10 more ticks. -/
theorem test_lines_answer :
    (answer (run .lines (asks board .D .lines)) .D).map (fun a => (a.2.length, a.2.take 20))
      = some (80, [0x25, 0x2A, 0x0F, 0, 0, 0x39, 0x28, 0x0F, 0, 0, 0x29, 0x2A, 0x0F, 0, 0, 0x02, 0x19, 0x0F, 10, 16]) := by
  decide +kernel

/-! ## Heartbeats and the lease clock -/

/-- HB2 enabled with debounce length 3 and edge selection BOTH, its accepted level LOW (chapter 6). -/
def noisy (samples : List Bool) : HbInput :=
  let s := (atCount running 100).mapInputs fun n x => if n = 2 then { x with enabled := true, edge := .both } else x
  (samples.foldl (fun s b => run (.tick (if b then 4 else 0)) s) s).input 2

/-- "Debounce of a noisy input": after ticks 2, 4, 5 and 8. -/
theorem test_debounce_example :
    (noisy [true, false]).stable = 0
      ∧ ((noisy [true, false, true, true]).stable = 2 ∧ (noisy [true, false, true, true]).level = false)
      ∧ ((noisy [true, false, true, true, true]).level = true ∧ (noisy [true, false, true, true, true]).claims = 1)
      ∧ (noisy [true, false, true, true, true, true, false, false]).stable = 2 := by
  decide +kernel

/-- For `SetHeartbeatAppliesSettings`: inputs of 0 and 16 and debounce lengths of 0 and 16 are out of range; an
input enabled takes its next sample as its level, with no claim (R111). -/
theorem witness_SetHeartbeatAppliesSettings :
    let s := run .setHeartbeat (asks board .A (.setHeartbeat 0x0F 0 1 2 15))
    (asks board .A (.setHeartbeat 0x0F 0 1 2 15)).nextRequest = some (.A, .setHeartbeat 0x0F 0 1 2 15)
      ∧ answer (run .setHeartbeat (asks board .A (.setHeartbeat 0 0 1 2 15))) .A = some (.range, [])
      ∧ answer (run .setHeartbeat (asks board .A (.setHeartbeat 16 0 1 2 15))) .A = some (.range, [])
      ∧ answer (run .setHeartbeat (asks board .A (.setHeartbeat 1 0 1 3 15))) .A = some (.range, [])
      ∧ answer (run .setHeartbeat (asks board .A (.setHeartbeat 1 0 1 2 16))) .A = some (.range, [])
      ∧ (answer s .A = some (.ok, []) ∧ (s.input 3).debounce = 15 ∧ (s.input 3).seeding = true)
      ∧ (((run (.tick 8) s).input 3).level = true ∧ ((run (.tick 8) s).input 3).claims = 0) := by
  decide +kernel

/-- The clock READY under MANUAL. -/
def readyClock : State := board.updClock fun c => { c with state := .ready, tick := some TickProgress.local }

/-- For `SetClockAppliesSettings`: a trim of 256 is out of range and one of -255 is applied; AUTO in READY takes
the clock to REFERENCE. -/
theorem witness_SetClockAppliesSettings :
    let s := run .setClock (asks readyClock .A (.setClock 0b101 0 1 0))
    (asks board .A (.setClock 0 1 1 0xFF01)).nextRequest = some (.A, .setClock 0 1 1 0xFF01)
      ∧ answer (run .setClock (asks board .A (.setClock 0 1 1 256))) .A = some (.range, [])
      ∧ answer (run .setClock (asks board .A (.setClock 0 2 1 0))) .A = some (.range, [])
      ∧ ((run .setClock (asks board .A (.setClock 0 1 1 0xFF01))).clock.trim = -255
        ∧ (run .setClock (asks board .A (.setClock 0 1 1 0xFF01))).clock.policy = .freeze)
      ∧ (s.clock.state = .reference ∧ (s.port .B).clockFlag = true
        ∧ answer s .A = some (.ok, [1, 0, 0, 0x4E, 0x20])) := by
  decide +kernel

/-- For `ResumeReturnsToReference`: READY, and REFERENCE, where it is answered STATE. -/
theorem witness_ResumeReturnsToReference :
    ((asks readyClock .A .resume).nextRequest = some (.A, .resume) ∧ readyClock.clock.state = .ready
        ∧ answer (run .resume (asks readyClock .A .resume)) .A = some (.ok, [0, 0, 0x4E, 0x20]))
      ∧ (run .resume (asks readyClock .A .resume)).clock.tick = some { counted := 0, length := 32 }
      ∧ answer (run .resume (asks board .A .resume)) .A = some (.state, [1, 0xFF, 0xFE]) := by
  decide +kernel

/-- Chapter 7, "a trim of +128": the tick at which the sum reaches 32768, and the one before. -/
theorem test_trim_example :
    let at_ := fun sum : Nat => (run (.tick 0) (running.updClock fun c =>
      { c with state := .reference, present := true, trim := 128, correction := sum })).clock
    ((at_ 32640).correction = 0 ∧ (at_ 32640).tick = some { counted := 0, length := 31 })
      ∧ (at_ 32512).correction = 32640 ∧ (at_ 32512).tick = some { counted := 0, length := 32 } := by
  decide +kernel

/-- For `TickAdvancesAllReaders`: a tick that can be made, and one that waits for the yield deadline at 20100. -/
theorem witness_TickAdvancesAllReaders :
    (board.tickReady = true ∧ board.clock.state = .reference ∧ board.clock.trim = 0
        ∧ (board.line 1).pattern.map Pulse.k = some (some 4) ∧ (run (.tick 0) board).clock.count = 20001)
      ∧ (run (.tick 0) (board.updClock fun c => { c with silence := 40 })).clock.silence = 0
      ∧ ((atCount board 20100).tickReady = false ∧ (run (.tick 0) (atCount board 20100)).clock.count = 20100) := by
  decide +kernel

/-- R116, R117: the edge that completes a reference tick makes it, and the next tick counts from 0. R121: while the
yield deadline event at 20100 is open the edges count on, and the tick made after it leaves the next one begun. -/
theorem test_edge_makes_tick :
    let at_ := fun (n : Word) (k : Nat) =>
      (atCount board n).updClock fun c => { c with tick := some { counted := k, length := 32 } }
    let held := run .refclkEdge (run .refclkEdge (at_ 20100 31))
    ((run .refclkEdge (at_ 20000 30)).clock.count = 20000
        ∧ (run .refclkEdge (at_ 20000 31)).clock.count = 20001
        ∧ (run .refclkEdge (at_ 20000 31)).clock.tick = some { counted := 0, length := 32 })
      ∧ (held.clock.count = 20100 ∧ held.clock.tick = some { counted := 33, length := 32 })
      ∧ (run (.tick 0) (run (.yieldDeadline 0) held)).clock.tick = some { counted := 1, length := 32 } := by
  decide +kernel

/-- 11.4: the loss under FREEZE, the first edge, the qualification and the RESUME. -/
theorem test_loss_sequence_11_4 :
    let s := (atCount board 30000).updClock fun c => { c with policy := .freeze }
    let lost := run .lossEvent s
    let ready := run .qualificationEvent (run .refclkEdge lost)
    (lost.clock.state = .fallback ∧ lost.clock.tick = none ∧ (lost.port .B).clockFlag = true)
      ∧ ((run .refclkEdge lost).clock.qual = some 0 ∧ ready.clock.state = .ready ∧ ready.clock.qual = none)
      ∧ (run .resume (asks ready .A .resume)).clock.state = .reference := by
  decide +kernel

/-- For `ReferenceSupervisionMovesClock`: each clock state, with the qualification count at its last value. -/
theorem witness_ReferenceSupervisionMovesClock :
    let counted := fun (st : ClockState) (m : ResumeMode) => board.updClock fun c =>
      { c with state := st, resume := m, qual := some 2047, tick := some TickProgress.local }
    (running.clock.state = .start ∧ running.clock.present = false ∧ running.inReset = false)
      ∧ ((run .refclkEdge running).clock.qual = some 0 ∧ (run .refclkEdge running).clock.present = true)
      ∧ ((run .refclkEdge (counted .start .manual)).clock.state = .reference
        ∧ ((run .refclkEdge (counted .start .manual)).port .B).clockFlag = false)
      ∧ ((run .refclkEdge (counted .fallback .manual)).clock.state = .ready
        ∧ ((run .refclkEdge (counted .fallback .manual)).port .B).clockFlag = true)
      ∧ (run .refclkEdge (counted .fallback .auto)).clock.state = .reference
      ∧ (run .refclkEdge board).clock.tick = some { counted := 1, length := 32 }
      ∧ (run .lossEvent readyClock).clock.state = .fallback := by
  decide +kernel

/-! ## The laws in the states above -/

theorem attentionLaw_of_all (s : State)
    (h : ([Port.A, .B, .C, .D].all fun p => (s.port p).attn == s.attnLevel p) = true) : AttentionLaw s := by
  simp only [List.all_cons, List.all_nil, Bool.and_true, Bool.and_eq_true, beq_iff_eq] at h
  intro p
  cases p
  · exact h.1
  · exact h.2.1
  · exact h.2.2.1
  · exact h.2.2.2

/-- The states that the witnesses above put requests and events to. -/
def witnessStates : List State :=
  [contention2, closedLine, quotaUsed, fullTable, board, atCap, readyClock, pulseExample, inFlight, withoutD,
    termExample 10150 200 (held 10200) { granted := true },
    termExample 10300 200 { held 10370 with count := 1 } {}, claims, linesExample, running,
    atCount board 20100, atCount board 20030, atCount board 20500, atCount linesExample 4042]

/-- With `asks_laws`: every witness state, with any request of any port in its buffer, meets the laws that the
statements assume beside the clauses shown above. -/
theorem witnessStates_laws : ∀ s ∈ witnessStates, ∀ (p : Port) (r : Request),
    BindingLaw (asks s p r) ∧ QueueLaw (asks s p r) ∧ YieldLaw (asks s p r) ∧ AttentionLaw (asks s p r) := by
  intro s hs p r
  apply asks_laws
  revert s
  simp only [witnessStates, List.forall_mem_cons]
  refine ⟨?_, ?_, ?_, ?_, ?_, ?_, ?_, ?_, ?_, ?_, ?_, ?_, ?_, ?_, ?_, ?_, ?_, ?_, ?_, List.forall_mem_nil _⟩
  all_goals exact ⟨by decide +kernel, by decide +kernel, by decide +kernel, attentionLaw_of_all _ (by decide +kernel)⟩

/-- For `AttachmentItemsChangeAlone`: its third law, with the request in port A's buffer. -/
theorem withoutD_asked_detachedLaw : DetachedLaw (asks withoutD .A (.detach 3)) := by
  intro p; cases p <;> decide +kernel

end Sys2Proof.Tests
end

section
/-! SUPPORT. What a DRIVE makes of the lines, and the proof of its statement (chapter 5, R96 to R99). -/

namespace Sys2Proof.Machine

variable (s : State)

/-! ## Bytes and line sets in the terms of the statements -/

/-- The slot byte of a handle that names slot `i` is the byte of that slot's number. -/
theorem slotByte_eq_of_toNat {b : Byte} {i : Fin 16} (h : b.toNat = i.val) : slotByte i = b := by
  rw [slotByte, ← h, BitVec.ofNat_toNat, BitVec.setWidth_eq]

/-- A set with nothing outside another one has its lines in it. -/
theorem getLsbD_of_subset {a b : LineSet} (h : a &&& ~~~b = 0) (m : Fin 16) (hm : a.getLsbD m.val = true) :
    b.getLsbD m.val = true := by
  have hbit : (a &&& ~~~b).getLsbD m.val = false := by rw [h]; exact BitVec.getLsbD_zero
  simpa [hm] using hbit

/-- A current handle is what the answers give for its slot (R8). -/
theorem State.handleBytes_of_current {h : Handle} {i : Fin 16} {l : Lease} (hc : Current s h i l) :
    s.handleBytes i = [h.slot, h.gen] := by
  obtain ⟨hslot, -, hgen⟩ := hc
  rw [State.handleBytes, slotByte_eq_of_toNat hslot, hgen]

/-! ## Events that change lines alone -/

/-- The attention units read no line of the state before the event. -/
theorem State.attend_mapLines (f : Fin 16 → Line → Line) (acked : Option Port) (t : State) :
    (s.mapLines f).attend acked t = s.attend acked t := rfl

/-- A change of lines alone leaves ATTN as R141 gives it. -/
theorem State.attentionLaw_mapLines {s : State} (f : Fin 16 → Line → Line) (h : AttentionLaw s) :
    AttentionLaw (s.mapLines f) := by
  intro p
  rw [State.port_mapLines]
  exact h p

/-- A change of lines touches nothing aside from them. -/
theorem State.aside_mapLines (f : Fin 16 → Line → Line) : Aside s (s.mapLines f) :=
  ⟨s.clock_mapLines f, rfl, s.inReset_mapLines f, s.choices_mapLines f, s.pending_mapLines f⟩

/-- A change of lines that keeps the slots they are bound to leaves who calls on whom (R67). -/
theorem State.calledOn_mapLines {s : State} {f : Fin 16 → Line → Line}
    (hf : ∀ m, ((s.mapLines f).line m).boundSlot = (s.line m).boundSlot) (j : Fin 16) :
    (s.mapLines f).calledOn j = s.calledOn j := by
  apply State.calledOn_congr (s := s) (s.queue_mapLines f) hf <;> intro k
  · simp only [State.linesAt, State.leaseAt, State.slot_mapLines]
  · simp only [State.waitingAt, State.leaseAt, State.slot_mapLines]
  · simp only [State.levelAt, State.leaseAt, State.slot_mapLines]
  · simp only [State.yieldsTo, State.leaseAt, State.slot_mapLines, implies_true]

/-- A change of lines that keeps the slots they are bound to leaves the yields settled (R68, R72). -/
theorem State.yieldLaw_mapLines {s : State} {f : Fin 16 → Line → Line}
    (hf : ∀ m, ((s.mapLines f).line m).boundSlot = (s.line m).boundSlot) (h : YieldLaw s) :
    YieldLaw (s.mapLines f) := by
  intro j
  simp only [State.calledOn_mapLines hf, State.activeAt, State.yieldingAt, State.leaseAt, State.slot_mapLines]
  exact h j

/-- R68, R141, R152: a request that changes lines alone, none of them bound to another slot, settles to its own
changes and its answer. -/
theorem State.conclude_mapLines {s : State} {f : Fin 16 → Line → Line}
    (hf : ∀ m, ((s.mapLines f).line m).boundSlot = (s.line m).boundSlot) (hy : YieldLaw s) (ha : AttentionLaw s)
    (p : Port) (c : Command) (answer : State → Answer) :
    s.conclude p c false (s.mapLines f) answer = (s.mapLines f).respond p c (answer (s.mapLines f)) := by
  have hsettled := (s.mapLines f).settle_of_yieldLaw (State.yieldLaw_mapLines hf hy)
  have hattended : s.attend none (s.mapLines f) = s.mapLines f := by
    rw [← s.attend_mapLines f, State.attend_self _ (State.attentionLaw_mapLines f ha)]
  simp only [State.conclude, hsettled, hattended]

/-! ## Answers to a state whose ports stand -/

/-- An answer touches nothing aside from the port's buffer and the pointer. -/
theorem State.aside_respond {s t : State} (h : Aside s t) (p : Port) (c : Command) (a : Answer) :
    Aside s (t.respond p c a) := h

/-- An answer leaves everything of a port but its buffer. -/
theorem State.portsSteady_respond {s t : State} (hport : ∀ q, t.port q = s.port q) (p : Port) (c : Command)
    (a : Answer) : PortsSteady s (t.respond p c a) := by
  intro q
  rw [State.port_respond, hport]
  split <;> simp [PortState.steady]

/-- An answer goes to the port that asked, and to no other (R152). -/
theorem State.answered_respond {s t : State} (hport : ∀ q, t.port q = s.port q) (p : Port) (c : Command)
    (a : Answer) : Answered s (t.respond p c a) p c a.status a.data := by
  refine ⟨rfl, by rw [State.port_respond, if_pos rfl], fun q hq => ?_⟩
  rw [State.port_respond, if_neg hq, hport]

/-! ## Holder drives ordered (R96 to R98) -/

/-- R96, R98: timing in range orders a pattern from the next tick, with its active level by the kind. -/
theorem orderedDrive_pulse (clock : Word) {kind delay onTime period : Byte} (hkind : kind = 3 ∨ kind = 4)
    (hon : onTime ≠ 0) (hperiod : 2 ≤ period.toNat) (hlt : onTime.toNat < period.toNat) :
    orderedDrive clock kind delay onTime period =
      some (.pulse
        { activeHigh := kind = 3, delay := delay, onTime := onTime, period := period, origin := clock + 1,
          k := none }) := by
  have hstatic : driveOfByte kind = none := by rcases hkind with rfl | rfl <;> rfl
  simp only [orderedDrive, hstatic]
  exact if_pos ⟨hkind, hon, hperiod, hlt⟩

/-- R97: an order leaves the slot that a line is bound to. -/
@[simp] theorem Line.boundSlot_order (d : HolderDrive) (x : Line) : (x.order d).boundSlot = x.boundSlot := by
  cases h : x.occ <;> simp [Line.order, Line.boundSlot, h]

/-- R97, R98: an order gives a bound line its holder drive, and that drive's level at once. -/
theorem Line.order_of_bound {x : Line} {i : Fin 16} (h : x.boundSlot = some i) (d : HolderDrive) :
    x.order d = { x with occ := .bound i d, current := d.level } := by
  cases hocc : x.occ with
  | free => simp [Line.boundSlot, hocc] at h
  | quarantine w => simp [Line.boundSlot, hocc] at h
  | bound j e =>
    obtain rfl : j = i := by simpa [Line.boundSlot, hocc] using h
    simp [Line.order, hocc]

/-- R97, R99: an order of lines that are all bound to the slot reaches each of them and no other line. -/
theorem State.line_orderLines {i : Fin 16} {set : LineSet}
    (hb : ∀ m : Fin 16, set.getLsbD m.val = true → (s.line m).boundSlot = some i) (d : HolderDrive) (m : Fin 16) :
    (s.orderLines i set d).line m =
      if set.getLsbD m.val then { s.line m with occ := .bound i d, current := d.level } else s.line m := by
  rw [State.orderLines, State.line_mapLines]
  by_cases hm : set.getLsbD m.val = true
  · rw [if_pos ⟨hm, hb m hm⟩, if_pos hm, Line.order_of_bound (hb m hm)]
  · rw [if_neg fun h => hm h.1, if_neg hm]

/-- R97: an order leaves the slot that each line is bound to. -/
theorem State.boundSlot_orderLines (i : Fin 16) (set : LineSet) (d : HolderDrive) (m : Fin 16) :
    ((s.orderLines i set d).line m).boundSlot = (s.line m).boundSlot := by
  rw [State.orderLines, State.line_mapLines]
  split
  · exact Line.boundSlot_order d _
  · rfl

theorem State.clock_orderLines (i : Fin 16) (set : LineSet) (d : HolderDrive) :
    (s.orderLines i set d).clock = s.clock := rfl

/-- R97, R99: the event of an order is the order itself and its answer. -/
theorem State.conclude_orderLines {s : State} {i : Fin 16} {set : LineSet} {d : HolderDrive} (hy : YieldLaw s)
    (ha : AttentionLaw s) (p : Port) (c : Command) (answer : State → Answer) :
    s.conclude p c false (s.orderLines i set d) answer =
      (s.orderLines i set d).respond p c (answer (s.orderLines i set d)) :=
  State.conclude_mapLines (s.boundSlot_orderLines i set d) hy ha p c answer

/-- R87: lines named inside a holding lease's set are bound to its slot. -/
theorem State.boundSlot_of_named {s : State} {h : Handle} {i : Fin 16} {l : Lease} {set : LineSet}
    (hb : BindingLaw s) (hc : Current s h i l) (hh : l.holding ≠ none) (hin : set &&& ~~~l.lines = 0) (m : Fin 16)
    (hm : set.getLsbD m.val = true) : (s.line m).boundSlot = some i := by
  obtain ⟨-, hlease, -⟩ := hc
  have hl : l.lines.getLsbD m.val = true := getLsbD_of_subset hin m hm
  exact (hb m i).2 (by simp [State.holdsLine, hlease, hl, Option.isSome_iff_ne_none.2 hh])

/-! ## DRIVE taken (R96 to R99) -/

section HolderAsks

variable {s} {p : Port} {h : Handle} {set : LineSet} {kind delay onTime period : Byte} {i : Fin 16} {l : Lease}
  {d : HolderDrive} (hn : s.nextRequest = some (p, .drive h set kind delay onTime period))
  (hd : orderedDrive s.clock.count kind delay onTime period = some d) (hset : set ≠ 0) (hc : Current s h i l)
  (hp : l.holder = p) (hh : l.holding ≠ none)

include hn hd hset hc hp hh

/-- R96: past the checks of arguments, handle and lease state, what a DRIVE does turns on whether it names a line
outside the lease's set. -/
theorem exec_drive_of_holder :
    exec .drive s = .next
      (if set &&& ~~~l.lines ≠ 0 then
        s.refuse p .drive { status := .range, data := bytes16 (set &&& ~~~l.lines) }
      else
        s.conclude p .drive false (s.orderLines i set d) fun t =>
          { status := .ok, data := t.handleBytes i ++ bytes32 t.clock.count }) := by
  obtain ⟨g, hg⟩ := Option.ne_none_iff_exists'.1 hh
  have hcheck : s.checkHandle (some p) h = .current i l := hp ▸ (s.checkHandle_of_current hc).2
  change execDrive s = _
  simp only [execDrive, hn, State.takeDrive, hd, if_neg hset, hcheck, hg]

variable (hy : YieldLaw s) (ha : AttentionLaw s)

include hy ha

/-- R96: a line outside the lease's set is answered RANGE, with the lines outside it. -/
theorem exec_drive_outside (hout : set &&& ~~~l.lines ≠ 0) :
    exec .drive s =
      .next (s.respond p .drive { status := .range, data := bytes16 (set &&& ~~~l.lines) }) := by
  rw [exec_drive_of_holder hn hd hset hc hp hh, if_pos hout, s.refuse_eq_respond hy ha]

/-- R97 to R99: a DRIVE inside the lease's set orders the lines and answers OK, and its event does no more. -/
theorem exec_drive_inside (hin : set &&& ~~~l.lines = 0) :
    exec .drive s =
      .next ((s.orderLines i set d).respond p .drive
        { status := .ok, data := [h.slot, h.gen] ++ bytes32 s.clock.count }) := by
  have hbytes : (s.orderLines i set d).handleBytes i = [h.slot, h.gen] := s.handleBytes_of_current hc
  rw [exec_drive_of_holder hn hd hset hc hp hh, if_neg (not_not.2 hin),
    State.conclude_orderLines hy ha, hbytes, State.clock_orderLines]

end HolderAsks

end Sys2Proof.Machine

open Sys2Proof Sys2Proof.Machine

/-- Settles O43: each kind orders its own holder drive, and the two clauses for a drive are those of a set inside
and a set outside the lease's lines. -/
theorem driveOrdersNamedLines : Obligations.DriveOrdersNamedLines := by
  intro s p h set kind delay onTime period i l hn hset hc hp hh hb hy ha orders
  have clauses : ∀ {d : HolderDrive} {now : Drive},
      orderedDrive s.clock.count kind delay onTime period = some d → d.level = now → orders d now := by
    rintro d _ hd rfl
    refine ⟨fun hin => ?_, exec_drive_outside hn hd hset hc hp hh hy ha⟩
    have hport : ∀ q, (s.orderLines i set d).port q = s.port q := s.port_mapLines _
    refine ⟨_, exec_drive_inside hn hd hset hc hp hh hy ha hin, fun m => ?lines, fun j => ?slots, ?queue,
      State.aside_respond (s.aside_mapLines _) _ _ _, State.portsSteady_respond hport _ _ _,
      State.answered_respond hport _ _ _⟩
    case lines => rw [State.line_respond, s.line_orderLines (State.boundSlot_of_named hb hc hh hin)]
    case slots => rw [State.slot_respond, State.orderLines, State.slot_mapLines]
    case queue => rw [State.queue_respond, State.orderLines, State.queue_mapLines]
  refine ⟨?low, ?high, ?off, fun hon hperiod hlt => ⟨?pulseHigh, ?pulseLow⟩⟩
  case low => rintro rfl; exact clauses rfl rfl
  case high => rintro rfl; exact clauses rfl rfl
  case off => rintro rfl; exact clauses rfl rfl
  case pulseHigh =>
    rintro rfl
    exact clauses (orderedDrive_pulse _ (.inl rfl) hon hperiod hlt) rfl
  case pulseLow =>
    rintro rfl
    exact clauses (orderedDrive_pulse _ (.inr rfl) hon hperiod hlt) rfl
end

section
/-! SUPPORT. What each shared operation and each request leaves of the clock block, and the proof that the lease
clock advances by ticks alone (chapter 7, R116 to R130). -/

namespace Sys2Proof

/-- The commands by which the engine takes a request (log entry 2). -/
def Instr.takesRequest : Instr → Bool
  | .acquire | .renew | .release | .cancel | .drive | .query | .list | .ack | .mask | .time | .lines | .status
  | .setLine | .setPort | .setHeartbeat | .setClock | .resume | .revoke | .detach | .attach | .peek
  | .softReset => true
  | _ => false

end Sys2Proof

namespace Sys2Proof.Machine

variable (s : State)

/-! ## The shared operations leave the clock block -/

@[simp] theorem State.clock_updLease (i : Fin 16) (f : Lease → Lease) : (s.updLease i f).clock = s.clock :=
  s.clock_updSlot i _

@[simp] theorem State.clock_dequeue (i : Fin 16) : (s.dequeue i).clock = s.clock := s.clock_setQueue _

@[simp] theorem State.clock_bindLines (i : Fin 16) (lines : LineSet) : (s.bindLines i lines).clock = s.clock :=
  s.clock_mapLines _

@[simp] theorem State.clock_unbindVoluntary (i : Fin 16) : (s.unbindVoluntary i).clock = s.clock :=
  s.clock_mapLines _

@[simp] theorem State.clock_unbindInvoluntary (i : Fin 16) : (s.unbindInvoluntary i).clock = s.clock :=
  s.clock_mapLines _

@[simp] theorem State.clock_freeSlot (i : Fin 16) : (s.freeSlot i).clock = s.clock := by
  simp [State.freeSlot]

@[simp] theorem State.clock_endLease (i : Fin 16) (c : Cause) : (s.endLease i c).clock = s.clock := by
  simp [State.endLease]

@[simp] theorem State.clock_grantWaiter (i : Fin 16) (l : Lease) : (s.grantWaiter i l).clock = s.clock := by
  simp [State.grantWaiter]

@[simp] theorem State.clock_postClock : s.postClock.clock = s.clock := s.clock_mapPorts _

@[simp] theorem State.clock_detachPort (p : Port) : (s.detachPort p).clock = s.clock := by
  simp [State.detachPort, State.dropLeases]

theorem State.clock_scanStep (i : Fin 16) : (s.scanStep i).clock = s.clock := by
  obtain hstays | ⟨l, -, -, -, -, hgrant⟩ := s.scanStep_cases i
  · rw [hstays]
  · rw [hgrant, State.clock_grantWaiter]

/-- R39: a grant scan leaves the clock block. -/
@[simp] theorem State.clock_grantScan : s.grantScan.clock = s.clock :=
  List.foldlRecOn (motive := fun t : State => t.clock = s.clock) s.queue State.scanStep rfl
    fun t ht i _ => (t.clock_scanStep i).trans ht

@[simp] theorem State.clock_preemptAll (js : List (Fin 16)) : (s.preemptAll js).clock = s.clock :=
  List.foldlRecOn (motive := fun t : State => t.clock = s.clock) js _ rfl
    fun t ht j _ => (t.clock_endLease j _).trans ht

/-- R68: an evaluation of yields, with every further round of R41, leaves the clock block. -/
theorem State.clock_evaluate (n : Nat) : ∀ s : State, (State.evaluate n s).1.clock = s.clock := by
  induction n with
  | zero => exact fun _ => rfl
  | succ n ih =>
    intro s
    simp only [State.evaluate]
    split
    · rw [State.clock_withdrawYields, State.clock_startYields]
    · rw [ih, State.clock_grantScan, State.clock_preemptAll, State.clock_startYields]

@[simp] theorem State.clock_settle (scan : Bool) : (s.settle scan).1.clock = s.clock := by
  rw [State.settle, State.clock_evaluate]
  split
  · exact s.clock_grantScan
  · rfl

/-- R155: an event of the engine leaves the clock block that its own changes left. -/
@[simp] theorem State.clock_engineEvent (scan : Bool) (t : State) : (s.engineEvent scan t).clock = t.clock := by
  rw [State.engineEvent, State.clock_attend, State.clock_settle]

/-- R152: so does a request that is answered. -/
@[simp] theorem State.clock_conclude (p : Port) (c : Command) (scan : Bool) (t : State) (answer : State → Answer) :
    (s.conclude p c scan t answer).clock = t.clock := by
  rw [State.conclude, State.clock_respond, State.clock_attend, State.clock_settle]

@[simp] theorem State.clock_concludeAck (p : Port) (t : State) (answer : State → Answer) :
    (s.concludeAck p t answer).clock = t.clock := by
  rw [State.concludeAck, State.clock_respond, State.clock_attend, State.clock_settle]

@[simp] theorem State.clock_place (p : Port) (i : Fin 16) (st : Status) (scan : Bool) (t : State) :
    (s.place p i st scan t).clock = t.clock := by
  rw [State.place, State.clock_respond, State.clock_attend, State.clock_settle]

/-- R24: a refusal leaves the clock block. -/
@[simp] theorem State.clock_refuse (p : Port) (c : Command) (a : Answer) : (s.refuse p c a).clock = s.clock := by
  rw [State.refuse, State.clock_conclude]

/-- R167, R170: a change of attachment leaves the clock block. -/
@[simp] theorem State.clock_changeAttach (q : Port) (f : PortState → PortState) :
    (s.changeAttach q f).1.clock = s.clock := by
  simp only [State.changeAttach]
  split <;> simp

@[simp] theorem State.clock_warnOnMargin (p : Port) (margin : Setting Ticks) :
    (s.warnOnMargin p margin).clock = s.clock := by
  cases margin <;> simp [State.warnOnMargin, State.warnPort]

/-- What a renewal claim of input `n` changes: the leases that it renews, and the claims that wait (R110). -/
def State.claimTaken (s : State) (n : Fin 4) : State :=
  (s.claimAll n).mapInputs fun m x => if m = n then { x with claims := x.claims - 1 } else x

theorem State.clock_claimTaken (n : Fin 4) : (s.claimTaken n).clock = s.clock := by
  simp [State.claimTaken, State.claimAll]

/-! ## The moves of the clock block that leave the lease clock -/

@[simp] theorem Clock.count_edgeSeen (c : Clock) : c.edgeSeen.count = c.count := rfl

@[simp] theorem Clock.count_enterReference (c : Clock) : c.enterReference.count = c.count := rfl

@[simp] theorem Clock.count_configure (policy : Policy) (resume : ResumeMode) (trim : Int) (c : Clock) :
    (c.configure policy resume trim).count = c.count := rfl

@[simp] theorem Clock.count_lost (c : Clock) : c.lost.count = c.count := by
  cases h : c.state <;> simp [Clock.lost, h]

@[simp] theorem State.count_qualify : s.qualify.clock.count = s.clock.count := by
  unfold State.qualify
  split
  · rfl
  · split <;> rfl
  · rfl
  · rfl

/-! ## What the requests leave of the clock block -/

@[simp] theorem State.clock_takeAcquire (p : Port) (a : AcquireArgs) : (s.takeAcquire p a).clock = s.clock := by
  unfold State.takeAcquire
  split
  · rw [State.clock_refuse]
  · simp [apply_ite State.clock, State.grantNow, State.placeWaiting]

@[simp] theorem State.clock_takeRenew (p : Port) (h : Handle) (term : Ticks) :
    (s.takeRenew p h term).clock = s.clock := by
  unfold State.takeRenew
  split
  · rw [State.clock_refuse]
  · split
    · rw [State.clock_refuse]
    · split <;> simp [apply_ite State.clock]

@[simp] theorem State.clock_takeRelease (p : Port) (h : Handle) : (s.takeRelease p h).clock = s.clock := by
  unfold State.takeRelease
  split
  · rw [State.clock_refuse]
  · split <;> simp

@[simp] theorem State.clock_takeCancel (p : Port) (h : Handle) : (s.takeCancel p h).clock = s.clock := by
  unfold State.takeCancel
  split <;> simp [apply_ite State.clock]

@[simp] theorem State.clock_takeDrive (p : Port) (h : Handle) (set : LineSet) (kind delay onTime period : Byte) :
    (s.takeDrive p h set kind delay onTime period).clock = s.clock := by
  unfold State.takeDrive
  split
  · rw [State.clock_refuse]
  · split
    · rw [State.clock_refuse]
    · split
      · rw [State.clock_refuse]
      · split <;> simp [apply_ite State.clock, State.clock_orderLines]

@[simp] theorem State.clock_takeQuery (p : Port) (h : Handle) : (s.takeQuery p h).clock = s.clock := by
  unfold State.takeQuery
  split <;> simp

@[simp] theorem State.clock_takeAck (p : Port) (target gen kinds : Byte) :
    (s.takeAck p target gen kinds).clock = s.clock := by
  unfold State.takeAck
  cases s.checkHandle (some p) { slot := target, gen := gen } <;>
    simp [apply_ite State.clock, State.clearFlags]

@[simp] theorem State.clock_takeMask (p : Port) (kinds mode : Byte) :
    (s.takeMask p kinds mode).clock = s.clock := by
  unfold State.takeMask
  split <;> simp [apply_ite State.clock]

@[simp] theorem State.clock_takeSetLine (p : Port) (set : LineSet) (keep rest fault qlen access : Byte) :
    (s.takeSetLine p set keep rest fault qlen access).clock = s.clock := by
  simp [State.takeSetLine, apply_ite State.clock]

@[simp] theorem State.clock_takeSetPort (p : Port) (port keep quota ceiling : Byte) (margin window : Ticks) :
    (s.takeSetPort p port keep quota ceiling margin window).clock = s.clock := by
  unfold State.takeSetPort
  cases portOfByte port <;> simp [apply_ite State.clock]

@[simp] theorem State.clock_takeSetHeartbeat (p : Port) (inputs keep enable edge debounce : Byte) :
    (s.takeSetHeartbeat p inputs keep enable edge debounce).clock = s.clock := by
  simp [State.takeSetHeartbeat, apply_ite State.clock]

@[simp] theorem State.clock_takeRevoke (p : Port) (h : Handle) : (s.takeRevoke p h).clock = s.clock := by
  unfold State.takeRevoke
  split <;> simp [apply_ite State.clock]

@[simp] theorem State.clock_takeDetach (p : Port) (port : Byte) : (s.takeDetach p port).clock = s.clock := by
  unfold State.takeDetach
  split <;> simp

@[simp] theorem State.clock_takeAttach (p : Port) (port : Byte) : (s.takeAttach p port).clock = s.clock := by
  unfold State.takeAttach
  split <;> simp

@[simp] theorem State.clock_takePeek (p : Port) (slot : Byte) : (s.takePeek p slot).clock = s.clock := by
  unfold State.takePeek
  split <;> simp

@[simp] theorem State.clock_softResetChanges : s.softResetChanges.clock = s.clock := by
  simp [State.softResetChanges]

/-- R127: a RESUME changes the clock state, and not the lease clock. -/
theorem State.count_takeResume (p : Port) : (s.takeResume p).clock.count = s.clock.count := by
  unfold State.takeResume
  split <;> simp

/-- R129: a SET_CLOCK changes settings and the clock state, and not the lease clock. -/
theorem State.count_takeSetClock (p : Port) (keep policy mode : Byte) (trim : Ticks) :
    (s.takeSetClock p keep policy mode trim).clock.count = s.clock.count := by
  unfold State.takeSetClock
  simp only
  split
  · rw [State.clock_refuse]
  · rw [State.clock_conclude]
    split <;> simp

/-! ## Taking whichever request is next (R152, R154) -/

/-- The data of a TIME (R131, R158). -/
def State.timeData (s : State) : List Byte :=
  bytes32 s.clock.count ++ [s.clock.state.toByte, s.clock.attributes]
    ++ bytes16 (BitVec.ofInt 16 s.clock.trim) ++ s.clock.qualBytes

/-- The engine takes the request `r` of port `p`. -/
def State.taken (s : State) (p : Port) : Request → State
  | .acquire a => s.takeAcquire p a
  | .renew h newTerm => s.takeRenew p h newTerm
  | .release h => s.takeRelease p h
  | .cancel h => s.takeCancel p h
  | .drive h set kind delay onTime period => s.takeDrive p h set kind delay onTime period
  | .query h => s.takeQuery p h
  | .list => s.conclude p .list false s fun t => { status := .ok, data := t.listData p }
  | .ack target gen kinds => s.takeAck p target gen kinds
  | .mask kinds mode => s.takeMask p kinds mode
  | .time => s.conclude p .time false s fun t => { status := .ok, data := t.timeData }
  | .lines => s.conclude p .lines false s fun t => { status := .ok, data := allLines.flatMap t.lineEntry }
  | .status => s.conclude p .status false s fun t => { status := .ok, data := t.statusData p }
  | .setLine set keep rest fault qlen access => s.takeSetLine p set keep rest fault qlen access
  | .setPort port keep quota ceiling margin window => s.takeSetPort p port keep quota ceiling margin window
  | .setHeartbeat inputs keep enable edge debounce => s.takeSetHeartbeat p inputs keep enable edge debounce
  | .setClock keep policy mode trim => s.takeSetClock p keep policy mode trim
  | .resume => s.takeResume p
  | .revoke h => s.takeRevoke p h
  | .detach port => s.takeDetach p port
  | .attach port => s.takeAttach p port
  | .peek slot => s.takePeek p slot
  | .softReset => s.conclude p .softReset true s.softResetChanges fun _ => { status := .ok }

/-- R152, R154: the command of the request that is next takes that request. -/
theorem exec_instr_of_nextRequest {s : State} {p : Port} {r : Request} (h : s.nextRequest = some (p, r)) :
    exec r.instr s = .next (s.taken p r) := by
  cases r <;>
    simp only [Request.instr, exec, execAcquire, execRenew, execRelease, execCancel, execDrive, execQuery,
      execList, execAck, execMask, execTime, execLines, execStatus, execSetLine, execSetPort, execSetHeartbeat,
      execSetClock, execResume, execRevoke, execDetach, execAttach, execPeek, execSoftReset, h, State.taken,
      State.timeData]

/-- R152, R154: the event of a command whose request is not next does not arise (log entry 7). -/
theorem exec_of_not_nextRequest {c : Instr} (hc : c.takesRequest = true)
    (hne : ∀ p r, s.nextRequest = some (p, r) → r.instr ≠ c) : exec c s = .next s := by
  cases c <;> simp only [Instr.takesRequest, Bool.false_eq_true] at hc <;>
    simp only [exec, execAcquire, execRenew, execRelease, execCancel, execDrive, execQuery, execList, execAck,
      execMask, execTime, execLines, execStatus, execSetLine, execSetPort, execSetHeartbeat, execSetClock,
      execResume, execRevoke, execDetach, execAttach, execPeek, execSoftReset]
  all_goals
    split
    · exact absurd rfl (hne _ _ ‹_›)
    · rfl

/-- R152, R154: a command that takes a request takes the one that is next, or leaves the state. -/
theorem exec_takesRequest_cases {c : Instr} (hc : c.takesRequest = true) :
    exec c s = .next s
      ∨ ∃ p r, s.nextRequest = some (p, r) ∧ r.instr = c ∧ exec c s = .next (s.taken p r) := by
  by_cases h : ∃ p r, s.nextRequest = some (p, r) ∧ r.instr = c
  · obtain ⟨p, r, hn, rfl⟩ := h
    exact .inr ⟨p, r, hn, rfl, exec_instr_of_nextRequest hn⟩
  · exact .inl (exec_of_not_nextRequest s hc fun p r hn hr => h ⟨p, r, hn, hr⟩)

/-- R127, R129: no request changes the lease clock; RESUME and SET_CLOCK alone reach the clock block. -/
theorem State.count_taken (p : Port) (r : Request) : (s.taken p r).clock.count = s.clock.count := by
  cases r with
  | resume => exact s.count_takeResume p
  | setClock keep policy mode trim => exact s.count_takeSetClock p keep policy mode trim
  | _ => simp [State.taken]

/-- The outcome is a next state whose lease clock stands where that of `s` stands. -/
def CountStands (s : State) (o : Host.Outcome State Fault Refusal) : Prop :=
  ∃ t, o = .next t ∧ t.clock.count = s.clock.count

@[simp] theorem countStands_next {s t : State} :
    CountStands s (.next t) ↔ t.clock.count = s.clock.count := by
  simp [CountStands]

theorem CountStands.count_eq {s t : State} {o : Host.Outcome State Fault Refusal} (hc : CountStands s o)
    (h : o = .next t) : t.clock.count = s.clock.count := by
  rwa [h, countStands_next] at hc

/-- R120: a command that takes a request leaves the lease clock. -/
theorem countStands_of_takesRequest {c : Instr} (hc : c.takesRequest = true) : CountStands s (exec c s) := by
  obtain hstays | ⟨p, r, -, -, htaken⟩ := exec_takesRequest_cases s hc
  · rw [hstays, countStands_next]
  · rw [htaken, countStands_next, State.count_taken]

/-! ## What the events of the part leave of the lease clock -/

/-- R155: an event of slot, line or input `i` that the engine takes where it is due, and whose own changes leave
the clock block, leaves the lease clock. -/
theorem countStands_dueEvent {s : State} {n : Nat} (i : Nat) (due : Fin n → Bool) (scan : Bool) (u : Fin n → State)
    (hu : ∀ j, (u j).clock = s.clock) :
    CountStands s
      (if h : i < n then
        if !s.inReset && due ⟨i, h⟩ then .next (s.engineEvent scan (u ⟨i, h⟩)) else .next s
      else .next s) := by
  split
  · split
    · rw [countStands_next, State.clock_engineEvent, hu]
    · exact countStands_next.2 rfl
  · exact countStands_next.2 rfl

theorem countStands_selnFall (x : Port) : CountStands s (execSelnFall x s) := by
  unfold execSelnFall
  split <;> simp

theorem countStands_transactionRelease (x : Port) (mosi : List Bool) :
    CountStands s (execTransactionRelease x mosi s) := by
  unfold execTransactionRelease
  split <;> simp

theorem countStands_gapEnd (x : Port) : CountStands s (execGapEnd x s) := by
  unfold execGapEnd
  split <;> simp

theorem countStands_penChange (x : Port) (high : Bool) : CountStands s (execPenChange x high s) := by
  unfold execPenChange
  split <;> simp

theorem countStands_resetRelease (hb : BitVec 4) (pen : PortSet) : CountStands s (execResetRelease hb pen s) := by
  unfold execResetRelease
  split <;> simp

/-- R122, R124: a loss moves the clock state, and not the lease clock. -/
theorem countStands_lossEvent : CountStands s (execLossEvent s) := by
  unfold execLossEvent
  split
  · exact countStands_next.2 rfl
  · split
    · split <;> simp
    · exact countStands_next.2 rfl

/-- R123, R126: so does a qualification. -/
theorem countStands_qualificationEvent : CountStands s (execQualificationEvent s) := by
  unfold execQualificationEvent
  split
  · exact countStands_next.2 rfl
  · split <;> simp

/-- R122, R123: outside REFERENCE an edge of REFCLK ends the silence and qualifies, and leaves the lease clock. -/
theorem countStands_refclkEdge_of_not_reference (hs : s.clock.state ≠ .reference) :
    CountStands s (execRefclkEdge s) := by
  have hedge : ∀ f : Clock → Clock, (∀ c, (f c).count = c.count) →
      CountStands s (.next ((s.updClock Clock.edgeSeen).updClock f)) := fun f hf => by simp [hf]
  unfold execRefclkEdge
  split
  · exact countStands_next.2 rfl
  · split
    case h_1 | h_2 =>
      split
      · exact hedge _ fun _ => rfl
      · split
        · exact hedge _ fun _ => rfl
        · simp
    case h_3 => contradiction
    case h_4 => exact countStands_next.2 rfl

/-! ## What a tick makes of the lease clock (R120, R125) -/

/-- R125: the clock is frozen in FALLBACK and READY under FREEZE, and only there. -/
theorem Clock.frozen_iff (c : Clock) :
    c.frozen = true ↔ (c.state = .fallback ∨ c.state = .ready) ∧ c.policy = .freeze := by
  cases hs : c.state <;> cases hp : c.policy <;> simp [Clock.frozen, Clock.source, hs, hp]

/-- R116, R121: a tick can be made in a part that runs, with the clock not frozen and no event open. -/
theorem State.tickReady_iff :
    s.tickReady = true ↔ s.inReset = false ∧ s.clock.frozen = false ∧ s.eventsOpen = false := by
  simp [State.tickReady, and_assoc]

/-- R120: a TICK makes the tick where it can be made, and else leaves the state. -/
theorem execTick_cases (hb : BitVec 4) :
    (s.tickReady = true ∧ execTick hb s = .next (s.tickTaken hb)) ∨ execTick hb s = .next s := by
  unfold execTick
  split
  · exact .inl ⟨‹_›, rfl⟩
  · exact .inr rfl

/-- R116: an edge of REFCLK in REFERENCE leaves the lease clock, or makes the tick that it completes. -/
theorem count_refclkEdge_of_reference {t : State} (hs : s.clock.state = .reference)
    (h : execRefclkEdge s = .next t) :
    t.clock.count = s.clock.count ∨ t.clock.count = s.clock.count + 1 := by
  by_cases hr : s.inReset = true
  · rw [execRefclkEdge, if_pos hr] at h
    cases h
    exact .inl rfl
  · rw [execRefclkEdge_reference s (Bool.eq_false_iff.2 hr) hs] at h
    cases h
    split
    · rename_i hcomplete
      obtain ⟨hready, -⟩ := Bool.and_eq_true_iff.1 hcomplete
      exact .inr (State.count_tickTaken _ hready _)
    · exact .inl rfl

/-- R120: a tick that was made advanced a clock that was not frozen. -/
theorem State.not_frozen_of_tickReady (h : s.tickReady = true) :
    ¬((s.clock.state = .fallback ∨ s.clock.state = .ready) ∧ s.clock.policy = .freeze) := by
  obtain ⟨-, hfrozen, -⟩ := s.tickReady_iff.1 h
  rw [← Clock.frozen_iff, hfrozen]
  exact Bool.false_ne_true

/-- R120: every command but TICK, an edge of REFCLK in REFERENCE, and DEVICE_RESET leaves the lease clock. -/
theorem countStands_exec {c : Instr} (htick : ∀ hb, c ≠ .tick hb)
    (hedge : c = .refclkEdge → s.clock.state ≠ .reference) (hreset : c ≠ .deviceReset) : CountStands s (exec c s) := by
  cases c with
  | tick hb => exact absurd rfl (htick hb)
  | refclkEdge => exact countStands_refclkEdge_of_not_reference s (hedge rfl)
  | deviceReset => exact absurd rfl hreset
  | selnFall x => exact countStands_selnFall s x
  | transactionRelease x mosi => exact countStands_transactionRelease s x mosi
  | renewalClaim n =>
    exact countStands_dueEvent n (fun m => decide (0 < (s.input m).claims)) false s.claimTaken s.clock_claimTaken
  | expiry i =>
    exact countStands_dueEvent i s.expiryDue true (s.endLease · .expired) fun j => s.clock_endLease j .expired
  | waitDeadline i =>
    exact countStands_dueEvent i s.waitDue true (s.endLease · .waitExpired) fun j => s.clock_endLease j .waitExpired
  | yieldDeadline i =>
    exact countStands_dueEvent i s.yieldDue true (s.endLease · .preempted) fun j => s.clock_endLease j .preempted
  | quarantineDeadline l =>
    exact countStands_dueEvent l s.quarantineDue true
      (fun j => s.mapLines fun m x => if m = j then x.toRest else x) fun _ => s.clock_mapLines _
  | warningEvent i =>
    exact countStands_dueEvent i s.warningDue false (s.updLease · Lease.warn) fun j => s.clock_updLease j _
  | lossEvent => exact countStands_lossEvent s
  | qualificationEvent => exact countStands_qualificationEvent s
  | gapEnd x => exact countStands_gapEnd s x
  | penChange x high => exact countStands_penChange s x high
  | resetRelease hb pen => exact countStands_resetRelease s hb pen
  | _ => exact countStands_of_takesRequest s rfl

end Sys2Proof.Machine

open Sys2Proof Sys2Proof.Machine

/-- Settles O17: a TICK advances the clock exactly where a tick can be made, whatever its periods counted (log entry
9), an edge in REFERENCE where it completes one, and no other command but DEVICE_RESET reaches the lease clock. -/
theorem leaseClockAdvancesByTicks : Obligations.LeaseClockAdvancesByTicks := by
  refine ⟨fun c s t h => ⟨?reset, fun hreset => ?_⟩, fun hb s hrun hopen hfrozen => ?advances⟩
  case reset =>
    rintro rfl
    cases h
    rfl
  case advances =>
    have hready : s.tickReady = true :=
      s.tickReady_iff.2 ⟨hrun, Bool.eq_false_iff.2 fun hf => hfrozen (s.clock.frozen_iff.1 hf), hopen⟩
    exact ⟨s.tickTaken hb, if_pos hready, s.count_tickTaken hready hb⟩
  by_cases htick : ∃ hb, c = .tick hb
  · obtain ⟨hb, rfl⟩ := htick
    obtain ⟨hready, hmade⟩ | hstays := execTick_cases s hb
    · cases h.symm.trans hmade
      exact .inr ⟨.inl ⟨hb, rfl⟩, s.count_tickTaken hready hb, s.not_frozen_of_tickReady hready⟩
    · cases h.symm.trans hstays
      exact .inl rfl
  by_cases hedge : c = .refclkEdge ∧ s.clock.state = .reference
  · obtain ⟨rfl, hs⟩ := hedge
    obtain hstays | hmade := count_refclkEdge_of_reference s hs h
    · exact .inl hstays
    · exact .inr ⟨.inr ⟨rfl, hs⟩, hmade, by simp [hs]⟩
  exact .inl ((countStands_exec s (not_exists.1 htick) (not_and.1 hedge) hreset).count_eq h)
end

section
/-! SUPPORT. What LIST, TIME, LINES and STATUS answer, byte by byte, and the proof of their statement (R105, R131,
R135, R158, R159). -/

namespace Sys2Proof.Machine

variable (s : State)

/-! ## A report changes nothing but its buffer and the pointer -/

/-- R24, R68, R141: where the yields are settled and ATTN is as R141 gives it, a request that changes nothing is
answered from the state as it stood. -/
theorem State.conclude_self {s : State} (hy : YieldLaw s) (ha : AttentionLaw s) (p : Port) (c : Command)
    (answer : State → Answer) : s.conclude p c false s answer = s.respond p c (answer s) := by
  simp only [State.conclude, s.settle_of_yieldLaw hy, s.attend_self ha]

/-! ## The items of the reports -/

/-- R158: the state byte of a LIST entry has the slot number in its high half. -/
theorem slotByte_shift (i : Fin 16) : slotByte i <<< 4 = BitVec.ofNat 8 (16 * i.val) := by
  revert i
  decide

/-- R158: bit 0 tells whether ticks are made, and bits 1 and 2 which source makes them. -/
theorem Clock.attributes_eq (c : Clock) :
    let frozen := (c.state = .fallback ∨ c.state = .ready) ∧ c.policy = .freeze
    c.attributes =
      (if !decide frozen then 0x01 else 0x00)
        ||| (if frozen then 0 else if c.state = .reference then 0x02 else 0x04)
        ||| (if c.policy == .freeze then 0x08 else 0x00) ||| (if c.resume == .auto then 0x10 else 0x00) := by
  cases hs : c.state <;> cases hp : c.policy <;> cases hr : c.resume <;>
    simp [Clock.attributes, Clock.frozen, Clock.source, bitAt, hs, hp, hr]

/-- R156: the qualification count is FFFEh where it is absent, and FFFFh where it is unstarted. -/
theorem Clock.qualBytes_eq (c : Clock) :
    c.qualBytes =
      if c.state = .reference ∨ c.state = .ready then [0xFF, 0xFE]
      else c.qual.elim [0xFF, 0xFF] fun n => bytes16 (BitVec.ofNat 16 n) := by
  cases hs : c.state <;> cases hq : c.qual <;> simp [Clock.qualBytes, hs, hq]

/-- R159: accepted levels in bits 0 to 3, enables in bits 4 to 7. -/
theorem State.heartbeatByte_eq :
    s.heartbeatByte =
      bitAt 0 (s.input 0).level ||| bitAt 1 (s.input 1).level ||| bitAt 2 (s.input 2).level
        ||| bitAt 3 (s.input 3).level ||| bitAt 4 (s.input 0).enabled ||| bitAt 5 (s.input 1).enabled
        ||| bitAt 6 (s.input 2).enabled ||| bitAt 7 (s.input 3).enabled := by
  simp only [State.heartbeatByte, allInputs, List.foldl_cons, List.foldl_nil]
  ac_rfl

/-- R158: every entry of LINES is five bytes. -/
theorem State.length_lineEntry (m : Fin 16) : (s.lineEntry m).length = 5 := rfl

/-- Where every entry is `k` long, the entry of place `n` is found `k * n` from the start. -/
theorem take_drop_flatMap {α β : Type} {f : α → List β} {k : Nat} (hf : ∀ a, (f a).length = k) (l : List α)
    (n : Nat) (hn : n < l.length) : ((l.flatMap f).drop (k * n)).take k = f l[n] := by
  induction l generalizing n with
  | nil => exact absurd hn (Nat.not_lt_zero n)
  | cons a l ih =>
    rw [List.flatMap_cons]
    cases n with
    | zero => rw [Nat.mul_zero, List.drop_zero, List.take_left' (hf a), List.getElem_cons_zero]
    | succ n =>
      rw [Nat.mul_succ, Nat.add_comm, ← List.drop_drop, List.drop_left' (hf a), List.getElem_cons_succ]
      exact ih n _

theorem getElem_allLines (m : Fin 16) : allLines[m.val]'m.isLt = m := by
  revert m
  decide

/-- R158: the occupancy byte of a bound line gives the drive kind, and the holder of the lease in its slot. -/
theorem State.boundByte_eq {x : Line} {i : Fin 16} {d : HolderDrive} (hocc : x.occ = .bound i d) :
    1 ||| (portByte (s.holderOfLine x) <<< 2) ||| (d.kindByte <<< 4)
      = 1 ||| (d.kindByte <<< 4) ||| (((s.leaseAt i).elim 0 fun l => portByte l.holder) <<< 2) := by
  have hholder : portByte (s.holderOfLine x) = (s.leaseAt i).elim 0 fun l => portByte l.holder := by
    cases hl : s.leaseAt i <;> simp [State.holderOfLine, Line.boundSlot, hocc, hl, portByte]
  rw [hholder, BitVec.or_assoc, BitVec.or_comm _ (d.kindByte <<< 4), BitVec.or_assoc]

/-- R24, R152: a request that changes nothing is answered OK with its data, and changes nothing. -/
theorem exec_report {s : State} {p : Port} {r : Request} {c : Command} {f : State → List Byte} {data : List Byte}
    (hy : YieldLaw s) (ha : AttentionLaw s) (hn : s.nextRequest = some (p, r))
    (hr : s.taken p r = s.conclude p c false s fun t => { status := .ok, data := f t }) (hdata : f s = data) :
    exec r.instr s = .next (s.respond p c { status := .ok, data := data }) := by
  rw [exec_instr_of_nextRequest hn, hr, State.conclude_self hy ha, hdata]

end Sys2Proof.Machine

open Sys2Proof Sys2Proof.Machine

/-- Settles O52: each report is answered from the state as it stood, so that its data are compared item by item. -/
theorem listTimeLinesStatusReport : Obligations.ListTimeLinesStatusReport := by
  intro s p hy ha answers bit
  refine ⟨fun hn => ?list, fun hn => ?time, fun hn => ?status,
    fun hn => ⟨allLines.flatMap s.lineEntry, rfl, ?lines, fun m => ?entry⟩⟩
  case list =>
    refine exec_report (f := fun t => t.listData p) hy ha hn rfl ?_
    refine congrArg₂ (· ++ ·) (congrArg (allSlots.flatMap ·) (funext fun i => ?_)) rfl
    rw [State.listEntry, slotByte_shift]
    rfl
  case time =>
    refine exec_report (f := State.timeData) hy ha hn rfl ?_
    rw [State.timeData, Clock.attributes_eq, Clock.qualBytes_eq]
    cases s.clock.qual <;> rfl
  case status =>
    refine exec_report (f := fun t => t.statusData p) hy ha hn rfl ?_
    rw [State.statusData, State.heartbeatByte_eq]
    rfl
  case lines => exact exec_report (f := fun t => allLines.flatMap t.lineEntry) hy ha hn rfl rfl
  case entry =>
    rw [take_drop_flatMap s.length_lineEntry allLines m.val m.isLt, getElem_allLines]
    cases hocc : (s.line m).occ with
    | free => simp only [State.lineEntry, hocc]
    | quarantine d => simp only [State.lineEntry, hocc, State.remaining]
    | bound i d =>
      simp only [State.lineEntry, hocc, s.boundByte_eq hocc]
      cases s.leaseAt i <;> rfl
end

section
/-! SUPPORT. What an ACK makes of its slot, or of its port's CLOCK flag, and the proof of its statement (chapter 8,
R136 to R138). -/

namespace Sys2Proof.Machine

variable (s : State)

/-! ## A change of a slot that holds no line and stands in no queue (R67) -/

theorem State.leaseAt_updSlot_of_ne {i j : Fin 16} (hj : j ≠ i) (g : Slot → Slot) :
    (s.updSlot i g).leaseAt j = s.leaseAt j := by
  simp only [State.leaseAt, State.slot_updSlot, if_neg hj]

/-- R67: another waiter keeps its blockers. -/
theorem State.blocks_updSlot_of_ne {i w : Fin 16} (hw : w ≠ i) (g : Slot → Slot) (j : Fin 16) :
    (s.updSlot i g).blocks j w = s.blocks j w := by
  simp only [State.blocks, State.linesAt, s.leaseAt_updSlot_of_ne hw, State.line_updSlot]

/-- R67: a slot with no line bound to it blocks no waiter. -/
theorem State.blocks_of_unbound {s : State} {i : Fin 16} (hb : ∀ m, (s.line m).boundSlot ≠ some i) (w : Fin 16) :
    s.blocks i w = false := by
  simp [State.blocks, hb]

/-- R37: a slot outside the queue is ahead of no waiter. -/
theorem State.orderEligible_updSlot_of_ne {s : State} {i w : Fin 16} (hq : i ∉ s.queue) (hw : w ≠ i)
    (g : Slot → Slot) : (s.updSlot i g).orderEligible w = s.orderEligible w := by
  rw [State.orderEligible, State.orderEligible, State.queue_updSlot, Bool.eq_iff_iff, List.all_eq_true,
    List.all_eq_true]
  refine forall₂_congr fun k hk => ?_
  have hki : k ≠ i := fun h => hq (h ▸ (List.takeWhile_sublist _).subset hk)
  simp only [State.linesAt, s.leaseAt_updSlot_of_ne hki, s.leaseAt_updSlot_of_ne hw]

/-- R67: another waiter justifies as it did, for the slot is none of its blockers. -/
theorem State.justifying_updSlot_of_ne {s : State} {i w : Fin 16} (hq : i ∉ s.queue)
    (hb : ∀ m, (s.line m).boundSlot ≠ some i) (hw : w ≠ i) (g : Slot → Slot) :
    (s.updSlot i g).justifying w = s.justifying w := by
  have hyields : ∀ j n, (!s.blocks j w || (s.updSlot i g).yieldsTo j n) = (!s.blocks j w || s.yieldsTo j n) := by
    intro j n
    by_cases hj : j = i
    · rw [hj, State.blocks_of_unbound hb, Bool.not_false, Bool.true_or, Bool.true_or]
    · simp only [State.yieldsTo, s.leaseAt_updSlot_of_ne hj]
  simp only [State.justifying, State.waitingAt, State.levelAt, s.leaseAt_updSlot_of_ne hw,
    State.orderEligible_updSlot_of_ne hq hw, s.blocks_updSlot_of_ne hw, hyields]

/-- R67: no change of the slot changes who calls on whom. -/
theorem State.calledOn_updSlot_of_idle {s : State} {i : Fin 16} (hq : i ∉ s.queue)
    (hb : ∀ m, (s.line m).boundSlot ≠ some i) (g : Slot → Slot) (j : Fin 16) :
    (s.updSlot i g).calledOn j = s.calledOn j := by
  rw [State.calledOn, State.calledOn, State.queue_updSlot, Bool.eq_iff_iff, List.any_eq_true, List.any_eq_true]
  refine exists_congr fun w => and_congr_right fun hw => ?_
  have hwi : w ≠ i := fun h => hq (h ▸ hw)
  rw [State.justifying_updSlot_of_ne hq hb hwi, s.blocks_updSlot_of_ne hwi]

/-! ## An ENDED lease freed (R12, R137) -/

/-- R34: an ENDED lease stands in no queue. -/
theorem State.not_mem_queue_of_isEnded {s : State} {i : Fin 16} {l : Lease} (hq : QueueLaw s)
    (hl : s.leaseAt i = some l) (hended : l.isEnded = true) : i ∉ s.queue := by
  obtain ⟨-, hmem, -⟩ := hq
  rw [hmem, State.waitingAt, hl]
  cases hp : l.phase <;> simp [Lease.isEnded, hp] at hended
  simp [Lease.isWaiting, hp]

/-- R87: no line is bound to an ENDED lease. -/
theorem State.boundSlot_ne_of_isEnded {s : State} {i : Fin 16} {l : Lease} (hb : BindingLaw s)
    (hl : s.leaseAt i = some l) (hended : l.isEnded = true) (m : Fin 16) : (s.line m).boundSlot ≠ some i := by
  rw [Ne, hb m i, State.holdsLine, hl]
  cases hp : l.phase <;> simp [Lease.isEnded, hp] at hended
  simp [Lease.holding, hp]

/-- R12: the freeing of a slot that holds no line and stands in no queue changes the slot alone. -/
theorem State.freeSlot_of_idle {s : State} {i : Fin 16} (hq : i ∉ s.queue)
    (hb : ∀ m, (s.line m).boundSlot ≠ some i) : s.freeSlot i = s.updSlot i Slot.toFree := by
  have hlines : s.unbindVoluntary i = s :=
    State.ext_of_reads (fun _ => rfl) (fun m => by rw [State.line_unbindVoluntary, if_neg (hb m)])
      (s.port_mapLines _) (s.input_mapLines _) (s.queue_mapLines _) (s.clock_mapLines _) (s.pointer_mapLines _)
      (s.inReset_mapLines _) (s.choices_mapLines _) (s.pending_mapLines _)
  have hqueue : s.dequeue i = s := by
    have hfilter : (s.queue.filter fun j => j ≠ i) = s.queue :=
      List.filter_eq_self.2 fun k hk => decide_eq_true fun h => hq (h ▸ hk)
    rw [State.dequeue, hfilter, State.setQueue]
  rw [State.freeSlot, hlines, hqueue]

/-! ## What an ACK makes of its slot (R137) -/

/-- R137: the slot after an ACK that names `kinds` of its lease. -/
def Slot.acked (kinds : Byte) (x : Slot) : Slot :=
  match x.lease with
  | some l =>
    if kinds.getLsbD 4 && l.isEnded then x.toFree
    else { x with lease := some { l with flags := l.flags.minus (noticesOfByte kinds) } }
  | none => x

/-- R12, R137: ENDED named on an ENDED lease frees the slot. -/
theorem Slot.acked_of_ended {x : Slot} {l : Lease} {kinds : Byte} (hl : x.lease = some l)
    (hnamed : kinds.getLsbD 4 = true) (hended : l.isEnded = true) :
    x.acked kinds = { gen := x.gen + 1, lease := none } := by
  simp only [Slot.acked, hl, hnamed, hended, Bool.and_self, if_true, Slot.toFree]

/-- R137: any other ACK clears the named kinds. -/
theorem Slot.acked_of_kept {x : Slot} {l : Lease} {kinds : Byte} (hl : x.lease = some l)
    (hkept : kinds.getLsbD 4 = false ∨ l.isEnded = false) :
    x.acked kinds = { x with lease := some { l with flags := l.flags.minus (noticesOfByte kinds) } } := by
  have hnot : (kinds.getLsbD 4 && l.isEnded) = false := by rwa [Bool.and_eq_false_iff]
  simp only [Slot.acked, hl, hnot, Bool.false_eq_true, if_false]

theorem State.updSlot_congr {s : State} {i : Fin 16} {f g : Slot → Slot} (h : f (s.slot i) = g (s.slot i)) :
    s.updSlot i f = s.updSlot i g := by
  refine State.ext_of_reads (fun j => ?_) (by simp) (by simp) (by simp) (by simp) (by simp) (by simp)
    (by simp) (by simp) (by simp)
  rw [State.slot_updSlot, State.slot_updSlot]
  split
  next hj => rw [hj, h]
  next => rfl

/-- R12, R137: the two changes that an accepted ACK can make are one change of its slot. -/
theorem State.ackChange_eq_updSlot {s : State} {i : Fin 16} {l : Lease} {kinds : Byte} (hl : s.leaseAt i = some l)
    (hb : BindingLaw s) (hq : QueueLaw s) :
    (if (noticesOfByte kinds).ended && l.isEnded then s.freeSlot i else s.clearFlags i (noticesOfByte kinds)) =
      s.updSlot i (Slot.acked kinds) := by
  have hslot : (s.slot i).lease = some l := hl
  split
  next h =>
    obtain ⟨hnamed, hended⟩ := Bool.and_eq_true_iff.1 h
    rw [State.freeSlot_of_idle (State.not_mem_queue_of_isEnded hq hl hended)
      (State.boundSlot_ne_of_isEnded hb hl hended)]
    refine State.updSlot_congr ?_
    rw [Slot.acked_of_ended hslot hnamed hended, Slot.toFree, hslot]
  next h =>
    rw [State.clearFlags, State.updLease]
    refine State.updSlot_congr ?_
    rw [Slot.acked_of_kept hslot (Bool.and_eq_false_iff.1 (Bool.eq_false_iff.2 h)), hslot, Option.map_some]

/-! ## The yields stay settled (R68, R72) -/

/-- R68, R72: where who calls on whom stands, and no lease became ACTIVE or YIELDING, the yields stay settled. -/
theorem yieldLaw_of_calledOn {s t : State} (hcalled : ∀ j, t.calledOn j = s.calledOn j)
    (hactive : ∀ j, t.activeAt j = true → s.activeAt j = true)
    (hyielding : ∀ j, t.yieldingAt j = true → s.yieldingAt j = true) (h : YieldLaw s) : YieldLaw t := fun j =>
  ⟨fun ha => (hcalled j).trans ((h j).1 (hactive j ha)), fun hy => (hcalled j).trans ((h j).2 (hyielding j hy))⟩

/-- R68: freeing an ENDED lease leaves the yields settled. -/
theorem State.yieldLaw_toFree {s : State} {i : Fin 16} (hq : i ∉ s.queue)
    (hb : ∀ m, (s.line m).boundSlot ≠ some i) (h : YieldLaw s) : YieldLaw (s.updSlot i Slot.toFree) := by
  have hlease : ∀ j, (s.updSlot i Slot.toFree).leaseAt j = if j = i then none else s.leaseAt j := by
    intro j
    by_cases hj : j = i
    · cases hl : (s.slot i).lease <;> simp [State.leaseAt, hj, Slot.toFree, hl]
    · rw [s.leaseAt_updSlot_of_ne hj, if_neg hj]
  refine yieldLaw_of_calledOn (State.calledOn_updSlot_of_idle hq hb _) (fun j => ?_) (fun j => ?_) h
  · by_cases hj : j = i <;> simp [State.activeAt, hlease, hj]
  · by_cases hj : j = i <;> simp [State.yieldingAt, hlease, hj]

/-- R68: clearing notices leaves the yields settled. -/
theorem State.yieldLaw_clearFlags {s : State} (i : Fin 16) (kinds : Notices) (h : YieldLaw s) :
    YieldLaw (s.clearFlags i kinds) := by
  have hlease : ∀ j, (s.clearFlags i kinds).leaseAt j = (s.leaseAt j).map fun l =>
      if j = i then { l with flags := l.flags.minus kinds } else l := by
    intro j
    rw [State.clearFlags, State.leaseAt_updLease]
    split <;> simp
  have hqueue : (s.clearFlags i kinds).queue = s.queue := by
    rw [State.clearFlags, State.updLease, State.queue_updSlot]
  have hline : ∀ m, (s.clearFlags i kinds).line m = s.line m := fun m => by
    rw [State.clearFlags, State.updLease, State.line_updSlot]
  have hcalled := State.calledOn_of_leases _ hqueue hline hlease fun j l => by split <;> exact ⟨rfl, rfl, rfl, rfl⟩
  refine yieldLaw_of_calledOn hcalled (fun j => ?_) (fun j => ?_) h
  · rw [State.activeAt, State.activeAt, hlease]
    cases s.leaseAt j <;> simp [Lease.state, apply_ite Lease.phase]
  · rw [State.yieldingAt, State.yieldingAt, hlease]
    cases s.leaseAt j <;> simp [Lease.state, apply_ite Lease.phase]

/-- R68: whichever change an ACK makes of its slot, it leaves the yields settled. -/
theorem State.yieldLaw_acked {s : State} {i : Fin 16} {l : Lease} {kinds : Byte} (hl : s.leaseAt i = some l)
    (hb : BindingLaw s) (hq : QueueLaw s) (h : YieldLaw s) : YieldLaw (s.updSlot i (Slot.acked kinds)) := by
  rw [← State.ackChange_eq_updSlot hl hb hq]
  split
  next hfree =>
    obtain ⟨-, hended⟩ := Bool.and_eq_true_iff.1 hfree
    have hqueue := State.not_mem_queue_of_isEnded hq hl hended
    have hlines := State.boundSlot_ne_of_isEnded hb hl hended
    rw [State.freeSlot_of_idle hqueue hlines]
    exact State.yieldLaw_toFree hqueue hlines h
  next => exact State.yieldLaw_clearFlags i _ h

/-! ## An ACK accepted (R136, R142) -/

/-- R68, R142: an ACK that leaves the yields settled ends as its own change, the attention units and the answer. -/
theorem State.concludeAck_of_yieldLaw {u : State} (h : YieldLaw u) (p : Port) (answer : State → Answer) :
    s.concludeAck p u answer = (s.attend (some p) u).respond p .ack (answer u) := by
  simp only [State.concludeAck, u.settle_of_yieldLaw h]

/-- A change of a slot touches nothing aside from the table. -/
theorem State.aside_updSlot (i : Fin 16) (g : Slot → Slot) : Aside s (s.updSlot i g) :=
  ⟨s.clock_updSlot i g, rfl, s.inReset_updSlot i g, s.choices_updSlot i g, s.pending_updSlot i g⟩

/-- A change of a port touches nothing aside from the ports. -/
theorem State.aside_updPort (p : Port) (f : PortState → PortState) : Aside s (s.updPort p f) :=
  ⟨s.clock_updPort p f, rfl, s.inReset_updPort p f, s.choices_updPort p f, s.pending_updPort p f⟩

/-- R136, R141, R152: an accepted ACK makes its own change `u`, and beside it the attention units change gaps and
ATTN alone and the answer goes to the port that asked. -/
theorem exec_ack_of_concludeAck {s u : State} {p : Port} {target gen kinds : Byte} {answer : State → Answer}
    (hn : s.nextRequest = some (p, .ack target gen kinds))
    (htaken : s.takeAck p target gen kinds = s.concludeAck p u answer) (hy : YieldLaw u) (haside : Aside s u)
    (hbuffer : ∀ q, (u.port q).buffer = (s.port q).buffer) :
    ∃ t, exec .ack s = .next t ∧ (∀ j, t.slot j = u.slot j) ∧ (∀ m, t.line m = u.line m) ∧ t.queue = u.queue
      ∧ Aside s t ∧ (∀ q, (u.port q).steady (t.port q) = true)
      ∧ Answered s t p .ack (answer u).status (answer u).data := by
  have hexec : exec .ack s = .next ((s.attend (some p) u).respond p .ack (answer u)) :=
    (exec_instr_of_nextRequest hn).trans (congrArg _ (htaken.trans (s.concludeAck_of_yieldLaw hy p answer)))
  refine ⟨_, hexec, fun _ => rfl, fun _ => rfl, rfl, haside, fun q => ?steady,
    ⟨rfl, by rw [State.port_respond, if_pos rfl], fun q hq => ?buffers⟩⟩
  case steady =>
    rw [State.port_respond, State.port_attend]
    split <;> simp [PortState.steady]
  case buffers => rw [State.port_respond, if_neg hq, State.port_attend, ← hbuffer q]

/-- R128: a steady port keeps its CLOCK flag. -/
theorem PortState.clockFlag_of_steady {x y : PortState} (h : x.steady y = true) : y.clockFlag = x.clockFlag := by
  rw [PortState.steady, beq_iff_eq] at h
  exact (congrArg PortState.clockFlag h :)

/-- R136: kinds 1 to 31 name slot kinds alone, and at least one. -/
theorem badKinds_of_slotKinds {kinds : Byte} (hne : kinds ≠ 0) (hlt : kinds.toNat < 32) :
    badKinds kinds = false ∧ kinds.getLsbD 5 = false := by
  have hbit : ∀ n, 5 ≤ n → kinds.getLsbD n = false := fun n hn =>
    Nat.testBit_lt_two_pow (hlt.trans_le (Nat.pow_le_pow_right two_pos hn))
  exact ⟨by rw [badKinds, beq_false_of_ne hne, hbit 6 (by decide), hbit 7 (by decide)]; rfl, hbit 5 le_rfl⟩

/-- R136, R137: an ACK of slot kinds by the holder of a current lease is accepted, and changes its slot. -/
theorem State.takeAck_of_current {s : State} {target gen kinds : Byte} {i : Fin 16} {l : Lease} (hne : kinds ≠ 0)
    (hlt : kinds.toNat < 32) (hc : Current s { slot := target, gen := gen } i l) (hb : BindingLaw s)
    (hq : QueueLaw s) :
    s.takeAck l.holder target gen kinds =
      s.concludeAck l.holder (s.updSlot i (Slot.acked kinds)) fun t =>
        { status := .ok, data := t.ackData i } := by
  obtain ⟨hbad, hclock⟩ := badKinds_of_slotKinds hne hlt
  obtain ⟨-, hcheck⟩ := s.checkHandle_of_current hc
  obtain ⟨hslot, hl, -⟩ := hc
  have htarget : target ≠ 0xFF := by
    rintro rfl
    exact absurd hslot (i.isLt.trans (by decide : 16 < 255)).ne'
  simp only [State.takeAck, hbad, Bool.false_eq_true, if_false, if_neg htarget, hclock, hcheck,
    State.ackChange_eq_updSlot hl hb hq]

/-- R136, R138: an ACK of the port is accepted, and clears its CLOCK flag. -/
theorem State.takeAck_of_port (p : Port) (gen : Byte) :
    s.takeAck p 0xFF gen 0x20 =
      s.concludeAck p (s.updPort p fun x => { x with clockFlag := false }) fun t =>
        { status := .ok, data := [t.clock.state.toByte] } := rfl

end Sys2Proof.Machine

open Sys2Proof Sys2Proof.Machine

/-- Settles O38: an ACK of a lease is one change of its slot, an ACK of the port one of its CLOCK flag, and the event
around it adds the attention units and the answer alone. -/
theorem ackClearsNamedFlags : Obligations.AckClearsNamedFlags := by
  refine ⟨fun s p target gen kinds i l hn hne hlt hc hp hb hq hy => ?lease, fun s p gen hn hy => ?port⟩
  case lease =>
    subst hp
    have htaken := State.takeAck_of_current hne hlt hc hb hq
    obtain ⟨-, hl, -⟩ := hc
    obtain ⟨t, hexec, hslots, hlines, hqueue, haside, hsteady, hanswered⟩ :=
      exec_ack_of_concludeAck hn htaken (State.yieldLaw_acked hl hb hq hy) (s.aside_updSlot i _)
        fun q => by rw [State.port_updSlot]
    simp only [State.slot_updSlot, State.line_updSlot, State.queue_updSlot, State.port_updSlot, State.ackData,
      State.leaseAt, if_true] at hslots hlines hqueue hsteady hanswered
    refine ⟨t, hexec, fun j hj => (hslots j).trans (if_neg hj), hlines, hqueue, haside, hsteady,
      fun hnamed hended => ?freed, fun hkept => ?cleared⟩
    case freed =>
      rw [Slot.acked_of_ended hl hnamed hended] at hanswered
      exact ⟨by rw [hslots, if_pos rfl, Slot.acked_of_ended hl hnamed hended], hanswered⟩
    case cleared =>
      rw [Slot.acked_of_kept hl hkept] at hanswered
      exact ⟨by rw [hslots, if_pos rfl, Slot.acked_of_kept hl hkept]; rfl, hanswered⟩
  case port =>
    obtain ⟨t, hexec, hslots, hlines, hqueue, haside, hsteady, hanswered⟩ :=
      exec_ack_of_concludeAck hn (s.takeAck_of_port p gen) hy (s.aside_updPort p _)
        fun q => by rw [State.port_updPort]; split <;> rfl
    simp only [State.port_updPort] at hsteady
    have hown := hsteady p
    rw [if_pos rfl] at hown
    refine ⟨t, hexec, ⟨hslots, hqueue, hlines⟩, haside, PortState.clockFlag_of_steady hown, fun q hq => ?others, hown,
      hanswered⟩
    case others =>
      have hother := hsteady q
      rwa [if_neg hq] at hother
end

section
/-! SUPPORT. How the receiver reads a request frame, check by check, and the proof of its statement (chapter 9,
R145, R150 to R152, R157). -/

namespace Sys2Proof.Machine

/-! ## Argument bytes and the requests they make (R156, R157) -/

/-- R156: a two-byte item is read back as the bytes it came from. -/
@[simp] theorem bytes16_join16 (hi lo : Byte) : bytes16 (join16 hi lo) = [hi, lo] := by
  have hhi : (join16 hi lo).extractLsb' 8 8 = hi := BitVec.extractLsb'_append_eq_left
  have hlo : (join16 hi lo).extractLsb' 0 8 = lo := BitVec.extractLsb'_append_eq_right
  simp only [bytes16, hhi, hlo]

/-- R157: a request is made of its own command and arguments alone. -/
theorem Request.of_parse_eq_some {c : Command} {args : List Byte} {r : Request}
    (h : Request.parse c args = some r) : r.command = c ∧ r.args = args := by
  revert h
  fun_cases Request.parse c args
  all_goals rintro ⟨⟩
  all_goals simp [Request.command, Request.args, Handle.bytes]

/-- R157: the number of arguments of a request is the one that its command takes. -/
theorem Request.length_args (r : Request) : r.args.length = r.command.argLength := by
  cases r <;> rfl

/-- R157: arguments in the number that a command takes make a request. -/
theorem Request.exists_parse_eq_some :
    ∀ {c : Command} {args : List Byte}, args.length = c.argLength → ∃ r, Request.parse c args = some r
  | .acquire, [_, _, _, _, _, _, _, _, _, _, _, _], _ => ⟨_, rfl⟩
  | .drive, [_, _, _, _, _, _, _, _], _ | .setPort, [_, _, _, _, _, _, _, _], _ => ⟨_, rfl⟩
  | .setLine, [_, _, _, _, _, _, _], _ => ⟨_, rfl⟩
  | .setHeartbeat, [_, _, _, _, _], _ | .setClock, [_, _, _, _, _], _ => ⟨_, rfl⟩
  | .renew, [_, _, _, _], _ => ⟨_, rfl⟩
  | .ack, [_, _, _], _ => ⟨_, rfl⟩
  | .release, [_, _], _ | .cancel, [_, _], _ | .query, [_, _], _ | .revoke, [_, _], _ | .mask, [_, _], _ => ⟨_, rfl⟩
  | .detach, [_], _ | .attach, [_], _ | .peek, [_], _ => ⟨_, rfl⟩
  | .list, [], _ | .time, [], _ | .lines, [], _ | .status, [], _ | .resume, [], _ | .softReset, [], _ => ⟨_, rfl⟩

/-- R157: arguments in any other number make no request. -/
theorem Request.parse_eq_none {c : Command} {args : List Byte} (h : args.length ≠ c.argLength) :
    Request.parse c args = none := by
  refine Option.eq_none_iff_forall_ne_some.2 fun r hr => h ?_
  obtain ⟨rfl, rfl⟩ := Request.of_parse_eq_some hr
  exact r.length_args

/-- R161: the supervisor commands are those of codes 40h to 49h. -/
theorem exists_supervisor_commandOfCode_iff (code : Byte) :
    (∃ c, commandOfCode code = some c ∧ c.supervisor = true) ↔ 0x40 ≤ code.toNat ∧ code.toNat ≤ 0x49 := by
  unfold commandOfCode
  split
  case h_23 =>
    -- The codes that are not in the catalogue: none of 40h to 49h is among them.
    simp only [imp_false] at *
    simp only [reduceCtorEq, false_and, exists_false, false_iff]
    omega
  all_goals simp [Command.supervisor, *]

/-! ## The receiver's checks (R151) -/

section Checks

variable {p : Port} {code n check : Byte} {args body : List Byte} {c : Command}

theorem checkCommand_unknown (hc : commandOfCode code = none) :
    checkCommand p code args = .answered { status := .unknown } := by
  simp only [checkCommand, hc]

theorem checkCommand_length (hc : commandOfCode code = some c) (hlen : args.length ≠ c.argLength) :
    checkCommand p code args = formatAnswer .length := by
  simp only [checkCommand, hc, Request.parse_eq_none hlen]

theorem checkCommand_privilege (hc : commandOfCode code = some c) (hlen : args.length = c.argLength)
    (hsup : c.supervisor = true) (hp : p ≠ .A) :
    checkCommand p code args = .answered { status := .privilege } := by
  obtain ⟨r, hr⟩ := Request.exists_parse_eq_some hlen
  simp only [checkCommand, hc, hr, hsup, bne_iff_ne.2 hp, Bool.and_self, if_true]

/-- R151, R152: a command that the port may send, with as many arguments as it takes, is accepted as the request of
that command and those arguments. -/
theorem checkCommand_accepted (hc : commandOfCode code = some c) (hlen : args.length = c.argLength)
    (hp : c.supervisor = false ∨ p = .A) :
    ∃ r : Request, r.command = c ∧ r.args = args ∧ checkCommand p code args = .accepted r := by
  obtain ⟨r, hr⟩ := Request.exists_parse_eq_some hlen
  have hmay : (c.supervisor && p != .A) = false := by
    obtain hsup | rfl := hp
    · rw [hsup, Bool.false_and]
    · exact Bool.and_false _
  obtain ⟨hcommand, hargs⟩ := Request.of_parse_eq_some hr
  refine ⟨r, hcommand, hargs, ?_⟩
  simp only [checkCommand, hc, hr, hmay, Bool.false_eq_true, if_false]

theorem receive_tooLong (h : 24 < n.toNat) : receive p code (n :: body) = formatAnswer .length :=
  if_pos h

theorem receive_truncated (h : n.toNat ≤ 24) (hbody : body.length ≤ n.toNat) :
    receive p code (n :: body) = formatAnswer .truncated := by
  simp only [receive, Config.maxArguments, if_neg h.not_gt, List.getElem?_eq_none hbody]

theorem receive_badCrc (h : n.toNat ≤ 24) (hcheck : body[n.toNat]? = some check)
    (hcrc : check ≠ crcOf (code :: n :: body.take n.toNat)) :
    receive p code (n :: body) = formatAnswer .crc := by
  simp only [receive, Config.maxArguments, if_neg h.not_gt, hcheck, if_neg hcrc]

/-- R151: a complete frame with the right CRC is checked as its command and its arguments. -/
theorem receive_checked (h : n.toNat ≤ 24) (hcheck : body[n.toNat]? = some check)
    (hcrc : check = crcOf (code :: n :: body.take n.toNat)) :
    receive p code (n :: body) = checkCommand p code (body.take n.toNat) := by
  simp only [receive, Config.maxArguments, if_neg h.not_gt, hcheck, if_pos hcrc]

end Checks

/-! ## What a release of the transaction leaves (R145, R150) -/

theorem bytesOfBits_of_length_lt_eight {bits : List Bool} (h : bits.length < 8) : bytesOfBits bits = [] := by
  fun_cases bytesOfBits bits
  · simp only [List.length_cons] at h
    omega
  · rfl

section Release

variable {s : State} {x : Port} {copy b : Buffer} {code : Byte} {rest : List Byte} {extra : List Bool} {a : Answer}
  {d : FormatDetail} {r : Request}

theorem receivedBuffer_of_answered (h : receive x code rest = .answered a) :
    receivedBuffer x code rest = .ready (Response.make code a) := by
  simp only [receivedBuffer, h]

theorem receivedBuffer_of_format (h : receive x code rest = formatAnswer d) :
    receivedBuffer x code rest = .ready (Response.make code { status := .format, data := [d.toByte] }) :=
  receivedBuffer_of_answered h

theorem receivedBuffer_of_accepted (h : receive x code rest = .accepted r) :
    receivedBuffer x code rest = .pending r := by
  simp only [receivedBuffer, h]

/-- R150: a request whose copy was not PENDING is checked. -/
theorem releasedBuffer_of_request (hcopy : copy.request = none) (hcode : code ≠ 0) (now : Buffer) :
    releasedBuffer x copy now (code :: rest) = receivedBuffer x code rest := by
  simp only [releasedBuffer, if_neg hcode]
  cases copy with
  | pending r => cases hcopy
  | empty | ready a => rfl

/-- R145, R150: the release of a request transaction whose copy was not PENDING leaves what the receiver makes of its
complete bytes, and changes nothing else. -/
theorem exec_transactionRelease_of_request (htrans : (s.port x).transaction = .shifting copy)
    (hcopy : copy.request = none) (hcode : code ≠ 0) (hextra : extra.length < 8)
    (hreceived : receivedBuffer x code rest = b) :
    exec (.transactionRelease x (frameBits (code :: rest) ++ extra)) s =
      .next (s.updPort x fun q => { q with transaction := .idle, buffer := b }) := by
  have hexec : exec (.transactionRelease x (frameBits (code :: rest) ++ extra)) s =
      execTransactionRelease x (frameBits (code :: rest) ++ extra) s := rfl
  simp only [hexec, execTransactionRelease, htrans, bytesOfBits_frameBits, bytesOfBits_of_length_lt_eight hextra,
    List.append_nil, releasedBuffer_of_request hcopy hcode, hreceived]

end Release

end Sys2Proof.Machine

open Sys2Proof Sys2Proof.Machine

/-- Settles O23: the release leaves what the receiver makes of the bytes, and the first check that fails decides what
that is. -/
theorem receiverChecksInOrder : Obligations.ReceiverChecksInOrder := by
  refine ⟨exists_supervisor_commandOfCode_iff, fun s x copy code rest extra htrans hcopy hcode hextra => ?_⟩
  have leaves {b : Buffer} := exec_transactionRelease_of_request (b := b) htrans hcopy hcode hextra (rest := rest)
  refine ⟨?noLength, fun n body hrest => ?_⟩
  case noLength =>
    rintro rfl
    exact leaves (receivedBuffer_of_format (d := .truncated) rfl)
  subst hrest
  refine ⟨fun hlong => leaves (receivedBuffer_of_format (receive_tooLong hlong)),
    fun hn hshort => leaves (receivedBuffer_of_format (receive_truncated hn hshort)),
    fun check hn hcheck => ⟨fun hcrc => leaves (receivedBuffer_of_format (receive_badCrc hn hcheck hcrc)),
      fun hcrc => ?complete⟩⟩
  case complete =>
    have hchecked := receive_checked (p := x) hn hcheck hcrc
    have hlen : (body.take n.toNat).length = n.toNat :=
      List.length_take_of_le (List.getElem?_eq_some_iff.1 hcheck).1.le
    refine ⟨fun hc => leaves (receivedBuffer_of_answered (hchecked.trans (checkCommand_unknown hc))),
      fun c hc => ⟨?wrongLength, ?privilege, ?accepted⟩⟩
    case wrongLength =>
      exact fun hne => leaves (receivedBuffer_of_format (hchecked.trans (checkCommand_length hc (hlen.trans_ne hne))))
    case privilege =>
      exact fun heq hsup hport => leaves
        (receivedBuffer_of_answered (hchecked.trans (checkCommand_privilege hc (hlen.trans heq) hsup hport)))
    case accepted =>
      intro heq hmay
      obtain ⟨r, hcommand, hargs, haccepted⟩ := checkCommand_accepted hc (hlen.trans heq) hmay
      exact ⟨r, hcommand, hargs, leaves (receivedBuffer_of_accepted (hchecked.trans haccepted))⟩
end

section
/-! SUPPORT. What a SOFT_RESET makes of each part of the state, and the proof of its statement (chapter 10, R173,
R174). -/

namespace Sys2Proof.Machine

variable (s : State)

/-- R12: a slot returned to FREE, as one record of the two cases. -/
theorem Slot.toFree_eq (x : Slot) :
    x.toFree = { gen := if x.lease = none then x.gen else x.gen + 1, lease := none } := by
  obtain ⟨gen, lease⟩ := x
  cases lease <;> rfl

/-! ## The heartbeat inputs stand under every change of a soft reset (R174) -/

@[simp] theorem State.inputs_mapSlots (f : Fin 16 → Slot → Slot) : (s.mapSlots f).inputs = s.inputs := by
  simp only [State.mapSlots]

@[simp] theorem State.inputs_setQueue (q : List (Fin 16)) : (s.setQueue q).inputs = s.inputs := rfl

@[simp] theorem State.inputs_mapLines (f : Fin 16 → Line → Line) : (s.mapLines f).inputs = s.inputs := by
  simp only [State.mapLines]

@[simp] theorem State.inputs_mapPorts (f : Port → PortState → PortState) : (s.mapPorts f).inputs = s.inputs := by
  simp only [State.mapPorts]

/-! ## The changes of a soft reset (R173) -/

@[simp] theorem State.slot_softResetChanges (i : Fin 16) : s.softResetChanges.slot i = (s.slot i).toFree := by
  simp [State.softResetChanges]

@[simp] theorem State.line_softResetChanges (m : Fin 16) :
    s.softResetChanges.line m = if (s.line m).isFree then s.line m else (s.line m).toRest := by
  rw [State.softResetChanges, State.line_mapPorts, State.line_mapLines, State.line_setQueue, State.line_mapSlots]

@[simp] theorem State.port_softResetChanges (q : Port) :
    s.softResetChanges.port q = { s.port q with buffer := .empty, clockFlag := false, gap := none } := by
  simp [State.softResetChanges]

@[simp] theorem State.queue_softResetChanges : s.softResetChanges.queue = [] := by
  simp [State.softResetChanges]

/-- R174: a soft reset touches nothing aside from the table, the lines and the ports. -/
theorem State.aside_softResetChanges : Aside s s.softResetChanges := by
  simp [Aside, State.softResetChanges]

/-! ## Events that leave every slot FREE -/

/-- Every slot is FREE. -/
def State.TableFree (s : State) : Prop := ∀ i : Fin 16, s.leaseAt i = none

/-- R173: a soft reset leaves every slot FREE. -/
theorem State.tableFree_softResetChanges : s.softResetChanges.TableFree := fun i => by
  rw [State.leaseAt, State.slot_softResetChanges, Slot.toFree_eq]

section TableFree

variable {s} (h : s.TableFree)

include h

/-- R68: without leases there are no yields to settle. -/
theorem State.yieldLaw_of_tableFree : YieldLaw s := fun j => by
  simp [State.activeAt, State.yieldingAt, h j]

/-- R39, R68: with every slot FREE and no waiter, neither the scan nor the evaluation of yields finds anything to
do. -/
theorem State.settle_of_tableFree (hq : s.queue = []) (scan : Bool) : s.settle scan = (s, []) := by
  have hscan : s.grantScan = s := by rw [State.grantScan, hq, List.foldl_nil]
  calc s.settle scan = s.settle false := by cases scan <;> simp [State.settle, hscan]
    _ = (s, []) := s.settle_of_yieldLaw (State.yieldLaw_of_tableFree h)

/-- R133: a FREE slot has no notice of any port. -/
theorem State.flagsFor_of_tableFree (i : Fin 16) (q : Port) : (s.slot i).flagsFor q = {} := by
  have hfree : (s.slot i).lease = none := h i
  rw [Slot.flagsFor, hfree]

variable {q : Port} (hc : (s.port q).clockFlag = false)

include hc

/-- R141: with every slot FREE and CLOCK clear, the port has no unmasked notice pending. -/
theorem State.unmaskedPending_of_tableFree : s.unmaskedPending q = false := by
  simp [State.unmaskedPending, State.flagsFor_of_tableFree h, hc, Notices.minus, Notices.any]

/-- R142: and an event that leads there posted none. -/
theorem State.freshlyPosted_of_tableFree (before : State) : before.freshlyPosted s q = false := by
  simp [State.freshlyPosted, State.flagsFor_of_tableFree h, hc, Notices.minus, Notices.any]

/-- R141, R142: so such an event starts no gap, and leaves ATTN released. -/
theorem State.port_attend_of_tableFree (before : State) :
    (before.attend none s).port q = { s.port q with attn := false } := by
  have hgap : before.startsGap s none q = false := by
    simp [State.startsGap, State.freshlyPosted_of_tableFree h hc]
  simp [State.port_attend, hgap, State.unmaskedPending_of_tableFree h hc]

end TableFree

/-! ## A SOFT_RESET taken (R173) -/

/-- The attention units touch nothing aside from the ports. -/
theorem State.aside_attend {s t : State} (h : Aside s t) (before : State) (acked : Option Port) :
    Aside s (before.attend acked t) := by
  simpa [Aside, State.attend] using h

/-- R152, R173: the event of a SOFT_RESET is its own changes, ATTN released, and the answer. -/
theorem exec_softReset {s : State} {p : Port} (hn : s.nextRequest = some (p, .softReset)) :
    exec .softReset s =
      .next ((s.attend none s.softResetChanges).respond p .softReset { status := .ok }) := by
  have hsettled := State.settle_of_tableFree s.tableFree_softResetChanges s.queue_softResetChanges true
  have hexec : exec .softReset s = .next (s.taken p .softReset) := exec_instr_of_nextRequest hn
  simp only [hexec, State.taken, State.conclude, hsettled]

/-- R141, R173: after the attention units, every port has its buffer empty, CLOCK clear, no gap and ATTN released. -/
theorem State.port_attend_softResetChanges (q : Port) :
    (s.attend none s.softResetChanges).port q =
      { s.port q with buffer := .empty, clockFlag := false, gap := none, attn := false } := by
  have hclock : (s.softResetChanges.port q).clockFlag = false := by rw [State.port_softResetChanges]
  rw [State.port_attend_of_tableFree s.tableFree_softResetChanges hclock, State.port_softResetChanges]

end Sys2Proof.Machine

open Sys2Proof Sys2Proof.Machine

/-- Settles O49: with every slot FREE and the queue empty the rest of the event grants, posts and starts nothing, so
that it leaves the changes of the reset and the answer. -/
theorem softResetClearsTableAndLines : Obligations.SoftResetClearsTableAndLines := by
  intro s p hn
  refine ⟨_, exec_softReset hn, fun i => ?slots, ?queue, fun m => ?lines, fun q hq => ?others, ?asker, rfl,
    State.aside_respond (State.aside_attend s.aside_softResetChanges _ _) _ _ _⟩
  case slots => rw [State.slot_respond, State.slot_attend, State.slot_softResetChanges, Slot.toFree_eq]; rfl
  case queue => rw [State.queue_respond, State.queue_attend, State.queue_softResetChanges]
  case lines => rw [State.line_respond, State.line_attend, State.line_softResetChanges]; rfl
  case others => rw [State.port_respond, if_neg hq, State.port_attend_softResetChanges]
  case asker => rw [State.port_respond, if_pos rfl, State.port_attend_softResetChanges]; rfl
end

section
/-! SUPPORT. What a step can do, said once: the changes that an event of the engine makes of its own, what the
other commands make of the part, and the inversion of a command and of a step. -/

namespace Sys2Proof.Machine

/-! ## The changes of an event (R38, R152, R155) -/

/-- The clock block, and where it moves the notices, after a SET_CLOCK of these values (R129). -/
def State.setClockTo (s : State) (policy : Policy) (resume : ResumeMode) (trim : Int) : State :=
  if s.clock.state = .ready ∧ s.clock.resume = .manual ∧ resume = .auto then
    ((s.updClock (Clock.configure policy resume trim)).updClock Clock.enterReference).postClock
  else s.updClock (Clock.configure policy resume trim)

/-- What the events of the engine make of `s` by themselves, before the scan and the evaluation, and whether a
grant scan follows (R38). `asker` is the port whose request the event takes, where it takes one. -/
inductive Change (s : State) (asker : Option Port) : State → Bool → Prop where
  /-- A refusal or a report. -/
  | stands : Change s asker s false
  /-- R30. -/
  | grantNow {p : Port} {a : AcquireArgs} {level : Fin 4} {i : Fin 16} (hp : asker = some p)
      (hc : s.checkAcquire p a = .ok (level, i)) (ho : s.wouldBeEligible a.lines level.val = true)
      (hf : s.allFree a.lines = true) : Change s asker (s.grantNow i (s.newLease p a level)) false
  /-- R32. -/
  | placeWaiting {p : Port} {a : AcquireArgs} {level : Fin 4} {i : Fin 16} (hp : asker = some p)
      (hc : s.checkAcquire p a = .ok (level, i)) : Change s asker (s.placeWaiting i (s.newLease p a level)) true
  /-- R44, R58. -/
  | freeLive {i : Fin 16} {l : Lease} (hl : s.leaseAt i = some l) (hlive : l.isEnded = false) :
      Change s asker (s.freeSlot i) true
  /-- R137: the ACK of an ENDED lease. -/
  | freeEnded {i : Fin 16} {l : Lease} (hl : s.leaseAt i = some l) (hended : l.isEnded = true) :
      Change s asker (s.freeSlot i) false
  /-- R137. -/
  | clearFlags (i : Fin 16) (kinds : Notices) : Change s asker (s.clearFlags i kinds) false
  /-- R138. -/
  | clearClock (p : Port) : Change s asker (s.updPort p fun x => { x with clockFlag := false }) false
  /-- R140. -/
  | setMask (p : Port) (kinds : Byte) (m : AttnMode) : Change s asker (s.updPort p (PortState.setMask kinds m)) false
  /-- R97. -/
  | order (i : Fin 16) (lines : LineSet) {kind delay onTime period : Byte} {d : HolderDrive}
      (hd : orderedDrive s.clock.count kind delay onTime period = some d) :
      Change s asker (s.orderLines i lines d) false
  /-- R103. -/
  | setLine (lines : LineSet) (rest fault : Setting Drive) (qlen : Setting Byte) (access : Setting PortSet) :
      Change s asker (s.mapLines fun l x => if lines.getLsbD l then x.configure rest fault qlen access else x) false
  /-- R92. -/
  | rest {m : Fin 16} (hd : s.quarantineDue m = true) :
      Change s asker (s.mapLines fun l x => if l = m then x.toRest else x) true
  /-- R50. -/
  | renew {i : Fin 16} {l : Lease} {g : Holding} {newTerm : Ticks} (hl : s.leaseAt i = some l)
      (hphase : l.phase = .active g) (hcap : l.belowCap g.count = true) (hterm : newTermInRange newTerm = true) :
      Change s asker
        (s.updLease i fun x => { x with term := termAfter x newTerm }.renew s.clock.count (s.port l.holder).margin)
        false
  /-- R52. -/
  | claim (n : Fin 4) : Change s asker (s.claimTaken n) false
  /-- R13. -/
  | endLease {i : Fin 16} {l : Lease} (cause : Cause) (hl : s.leaseAt i = some l) (hlive : l.isEnded = false) :
      Change s asker (s.endLease i cause) true
  /-- R54. -/
  | warn (i : Fin 16) : Change s asker (s.updLease i Lease.warn) false
  /-- R127. -/
  | resume (hs : s.clock.state = .ready) : Change s asker (s.updClock Clock.enterReference).postClock false
  /-- R129. -/
  | setClock (policy : Policy) (resume : ResumeMode) {trim : Int}
      (htrim : trim = s.clock.trim ∨ trim.natAbs ≤ 255) : Change s asker (s.setClockTo policy resume trim) false
  /-- R114. -/
  | setHeartbeat (inputs : Byte) (enable : Setting Bool) (edge : Setting EdgeSel) {debounce : Setting Nat}
      (hd : ∀ n, debounce = .to n → 1 ≤ n ∧ n ≤ 15) :
      Change s asker
        (s.mapInputs fun n x => if inputs.getLsbD n.val then x.configure enable edge debounce else x) false
  /-- R164. -/
  | setPort (q : Port) {quota : Setting Nat} (ceiling : Setting (Fin 4)) {margin window : Setting Ticks}
      (hquota : ∀ n, quota = .to n → s.slotUse q ≤ n ∧ n ≤ Config.maxQuota)
      (hmargin : ∀ m, margin = .to m → m.toNat ≤ Config.maxMargin)
      (hwindow : ∀ w, window = .to w → w.toNat ≤ Config.maxMargin) :
      Change s asker ((s.updPort q (PortState.configure quota ceiling margin window)).warnOnMargin q margin) false
  /-- R168. -/
  | detach {p q : Port} {port : Byte} (hp : asker = some p) (hb : (s.port p).buffer = .pending (.detach port))
      (hq : q ≠ .A) :
      Change s asker (s.changeAttach q fun x => { x with cmdDetach := true }).1
        (s.changeAttach q fun x => { x with cmdDetach := true }).2
  /-- R169. -/
  | attach (q : Port) : Change s asker (s.updPort q fun x => { x with cmdDetach := false }) false
  /-- R167. -/
  | pen (x : Port) (high : Bool) (hp : asker = none) :
      Change s asker (s.changeAttach x fun q => { q with pen := high }).1
        (s.changeAttach x fun q => { q with pen := high }).2
  /-- R173. -/
  | softReset : Change s asker s.softResetChanges true

/-! ## Settings that are in range -/

theorem Setting.read_eq_to {α : Type} {kept : Bool} {v : Option α} {x : α} (h : Setting.read kept v = .to x) :
    v = some x := by
  cases kept <;> cases v <;> simp_all [Setting.read]

/-- R156: a setting in range leaves the value in force, or one that its item defines. -/
theorem Setting.over_read {α : Type} {kept : Bool} {v : Option α} (x : α) (h : (Setting.read kept v).bad = false) :
    (Setting.read kept v).over x = x ∨ v = some ((Setting.read kept v).over x) := by
  cases kept <;> cases v <;> simp_all [Setting.read, Setting.bad, Setting.over]

theorem natAbs_le_of_trimOf {t : Ticks} {n : Int} (h : trimOf t = some n) : n.natAbs ≤ 255 := by
  unfold trimOf at h
  split at h
  · cases h; assumption
  · cases h

theorem debounce_range {b : Byte} {n : Nat} (h : debounceOfByte b = some n) : 1 ≤ n ∧ n ≤ 15 := by
  unfold debounceOfByte at h
  split at h
  · cases h; assumption
  · cases h

theorem marginOf_le {t m : Ticks} (h : marginOf t = some m) : m.toNat ≤ Config.maxMargin := by
  unfold marginOf at h
  split at h
  · cases h; assumption
  · cases h

theorem upTo_le {limit n m : Nat} (h : upTo limit n = some m) : m ≤ limit := by
  unfold upTo at h
  split at h
  · cases h; assumption
  · cases h

/-! ## What a request that is taken can do (R152) -/

/-- What the engine makes of the request `r` of port `p`: the event of a change, the attention units, and the answer
(R152). An accepted ACK alone is named to the attention units (R142). -/
def TakenAs (s : State) (p : Port) (r : Request) (t : State) : Prop :=
  ∃ (u : State) (scan : Bool) (acked : Option Port) (a : Answer),
    Change s (some p) u scan
      ∧ (acked = some p ∧ r.instr = .ack ∧ a.status = .ok ∨ acked = none ∧ (r.instr = .ack → a.status ≠ .ok))
      ∧ t = (s.attend acked (u.settle scan).1).respond p r.command a

section Taken

variable {s : State} {p : Port} {r : Request}

/-- R24: a refusal, with a status other than OK where it answers an ACK. -/
theorem takenAs_refuse {c : Command} (hc : r.command = c) {a : Answer} (ha : r.instr = .ack → a.status ≠ .ok) :
    TakenAs s p r (s.refuse p c a) :=
  ⟨s, false, none, a, .stands, .inr ⟨rfl, ha⟩, by subst hc; rfl⟩

/-- R152: any event of a request but an ACK. -/
theorem takenAs_conclude {c : Command} (hc : r.command = c) (hr : r.instr ≠ .ack) {u : State} {scan : Bool}
    (h : Change s (some p) u scan) (answer : State → Answer) : TakenAs s p r (s.conclude p c scan u answer) :=
  ⟨u, scan, none, answer (u.settle scan).1, h, .inr ⟨rfl, fun h => absurd h hr⟩, by subst hc; rfl⟩

/-- R136: an accepted ACK. -/
theorem takenAs_concludeAck (hc : r.command = .ack) (hr : r.instr = .ack) {u : State}
    (h : Change s (some p) u false) {answer : State → Answer} (ha : ∀ t, (answer t).status = .ok) :
    TakenAs s p r (s.concludeAck p u answer) :=
  ⟨u, false, some p, answer (u.settle false).1, h, .inl ⟨rfl, hr, ha _⟩, by rw [hc]; rfl⟩

end Taken

variable (s : State) (p : Port)

theorem Lease.isEnded_of_isWaiting {l : Lease} (h : l.isWaiting = true) : l.isEnded = false := by
  cases hp : l.phase <;> simp_all [Lease.isWaiting, Lease.isEnded]

/-- A slot that passes the handle checks holds a lease, of the port that the check asked for. -/
theorem State.leaseAt_of_checkHandle {s : State} {holder : Option Port} {h : Handle} {i : Fin 16} {l : Lease}
    (hc : s.checkHandle holder h = .current i l) : s.leaseAt i = some l ∧ ∀ p, holder = some p → l.holder = p := by
  obtain ⟨⟨-, hl, -⟩, hholder⟩ := s.checkHandle_current hc
  exact ⟨hl, hholder⟩

theorem State.status_ne_ok_of_checkHandle {s : State} {holder : Option Port} {h : Handle} {st : Status}
    (hc : s.checkHandle holder h = .refused st) : st ≠ .ok := by
  unfold State.checkHandle at hc
  rintro rfl
  repeat' split at hc
  all_goals cases hc

theorem takenAs_acquire (a : AcquireArgs) : TakenAs s p (.acquire a) (s.takeAcquire p a) := by
  unfold State.takeAcquire
  split
  · exact takenAs_refuse rfl (by nofun)
  · rename_i level i hc
    simp only
    split
    · rename_i h
      obtain ⟨ho, hf⟩ := Bool.and_eq_true_iff.1 h
      exact ⟨_, _, none, _, .grantNow rfl hc ho hf, .inr ⟨rfl, by nofun⟩, rfl⟩
    · split
      · exact takenAs_refuse rfl (by nofun)
      · exact ⟨_, _, none, _, .placeWaiting rfl hc, .inr ⟨rfl, by nofun⟩, rfl⟩

theorem takenAs_cancel (h : Handle) : TakenAs s p (.cancel h) (s.takeCancel p h) := by
  unfold State.takeCancel
  split
  · exact takenAs_refuse rfl (by nofun)
  · rename_i i l hc
    obtain ⟨hl, -⟩ := State.leaseAt_of_checkHandle hc
    split
    · rename_i hw
      exact takenAs_conclude rfl (by nofun) (.freeLive hl (Lease.isEnded_of_isWaiting hw)) _
    · exact takenAs_refuse rfl (by nofun)

theorem takenAs_renew (h : Handle) (newTerm : Ticks) : TakenAs s p (.renew h newTerm) (s.takeRenew p h newTerm) := by
  unfold State.takeRenew
  split
  · exact takenAs_refuse rfl (by nofun)
  · rename_i hterm
    split
    · exact takenAs_refuse rfl (by nofun)
    · rename_i i l hc
      obtain ⟨hl, hholder⟩ := State.leaseAt_of_checkHandle hc
      obtain rfl := hholder p rfl
      split
      case h_4 =>
        rename_i g hphase
        split
        · rename_i hcap
          exact takenAs_conclude rfl (by nofun) (.renew hl hphase hcap (by simpa using hterm)) _
        · exact takenAs_refuse rfl (by nofun)
      all_goals exact takenAs_refuse rfl (by nofun)

theorem takenAs_release (h : Handle) : TakenAs s p (.release h) (s.takeRelease p h) := by
  unfold State.takeRelease
  split
  · exact takenAs_refuse rfl (by nofun)
  · rename_i i l hc
    obtain ⟨hl, -⟩ := State.leaseAt_of_checkHandle hc
    split
    case h_1 | h_2 => exact takenAs_refuse rfl (by nofun)
    case h_3 | h_4 =>
      rename_i hphase
      exact takenAs_conclude rfl (by nofun) (.freeLive hl (by rw [Lease.isEnded, hphase])) _

theorem takenAs_drive (h : Handle) (set : LineSet) (kind delay onTime period : Byte) :
    TakenAs s p (.drive h set kind delay onTime period) (s.takeDrive p h set kind delay onTime period) := by
  unfold State.takeDrive
  split
  · exact takenAs_refuse rfl (by nofun)
  · rename_i d hd
    split
    · exact takenAs_refuse rfl (by nofun)
    · split
      · exact takenAs_refuse rfl (by nofun)
      · split
        · exact takenAs_refuse rfl (by nofun)
        · split
          · exact takenAs_refuse rfl (by nofun)
          · exact takenAs_conclude rfl (by nofun) (.order _ _ hd) _

theorem takenAs_query (h : Handle) : TakenAs s p (.query h) (s.takeQuery p h) := by
  unfold State.takeQuery
  split
  · exact takenAs_refuse rfl (by nofun)
  · exact takenAs_conclude rfl (by nofun) .stands _

theorem takenAs_ack (target gen kinds : Byte) : TakenAs s p (.ack target gen kinds) (s.takeAck p target gen kinds) := by
  have refused {a : Answer} (ha : a.status ≠ .ok) : TakenAs s p (.ack target gen kinds) (s.refuse p .ack a) :=
    takenAs_refuse rfl fun _ => ha
  unfold State.takeAck
  split
  · exact refused nofun
  · split
    · split
      · exact refused nofun
      · exact takenAs_concludeAck rfl rfl (.clearClock p) fun _ => rfl
    · split
      · exact refused nofun
      · split
        · rename_i hc
          exact refused (State.status_ne_ok_of_checkHandle hc)
        · rename_i i l hc
          obtain ⟨hl, -⟩ := State.leaseAt_of_checkHandle hc
          refine takenAs_concludeAck rfl rfl ?_ fun _ => rfl
          split
          · rename_i hended
            exact .freeEnded hl (Bool.and_eq_true_iff.1 hended).2
          · exact .clearFlags i _

theorem takenAs_mask (kinds mode : Byte) : TakenAs s p (.mask kinds mode) (s.takeMask p kinds mode) := by
  unfold State.takeMask
  split
  · exact takenAs_refuse rfl (by nofun)
  · split
    · exact takenAs_refuse rfl (by nofun)
    · exact takenAs_conclude rfl (by nofun) (.setMask p kinds _) _

theorem takenAs_setLine (set : LineSet) (keep rest fault qlen access : Byte) :
    TakenAs s p (.setLine set keep rest fault qlen access) (s.takeSetLine p set keep rest fault qlen access) := by
  unfold State.takeSetLine
  simp only
  split
  · exact takenAs_refuse rfl (by nofun)
  · exact takenAs_conclude rfl (by nofun) (.setLine _ _ _ _ _) _

theorem takenAs_setPort (port keep quota ceiling : Byte) (margin window : Ticks) :
    TakenAs s p (.setPort port keep quota ceiling margin window)
      (s.takeSetPort p port keep quota ceiling margin window) := by
  unfold State.takeSetPort
  simp only
  split
  · exact takenAs_refuse rfl (by nofun)
  · rename_i q hq
    split
    · exact takenAs_refuse rfl (by nofun)
    · split
      · exact takenAs_refuse rfl (by nofun)
      · rename_i huse
        refine takenAs_conclude rfl (by nofun) (.setPort q _ (fun n hn => ⟨?_, upTo_le (Setting.read_eq_to hn)⟩)
          (fun m hm => marginOf_le (Setting.read_eq_to hm)) fun w hw => marginOf_le (Setting.read_eq_to hw)) _
        rw [hn] at huse
        simpa [quotaTooLow] using huse

theorem takenAs_setHeartbeat (inputs keep enable edge debounce : Byte) :
    TakenAs s p (.setHeartbeat inputs keep enable edge debounce)
      (s.takeSetHeartbeat p inputs keep enable edge debounce) := by
  unfold State.takeSetHeartbeat
  simp only
  split
  · exact takenAs_refuse rfl (by nofun)
  · exact takenAs_conclude rfl (by nofun)
      (.setHeartbeat _ _ _ fun n hn => debounce_range (Setting.read_eq_to hn)) _

theorem takenAs_setClock (keep policy mode : Byte) (trim : Ticks) :
    TakenAs s p (.setClock keep policy mode trim) (s.takeSetClock p keep policy mode trim) := by
  unfold State.takeSetClock
  simp only
  split
  · exact takenAs_refuse rfl (by nofun)
  · rename_i hbad
    have htrim : (Setting.read (keep.getLsbD 2) (trimOf trim)).bad = false := by
      simp only [Bool.not_eq_true, Bool.or_eq_false_iff] at hbad
      exact hbad.2
    exact takenAs_conclude rfl (by nofun)
      (.setClock _ _ ((Setting.over_read s.clock.trim htrim).imp id natAbs_le_of_trimOf)) _

theorem takenAs_resume : TakenAs s p .resume (s.takeResume p) := by
  unfold State.takeResume
  split
  · exact takenAs_conclude rfl (by nofun) (.resume ‹_›) _
  all_goals exact takenAs_refuse rfl (by nofun)

theorem takenAs_revoke (h : Handle) : TakenAs s p (.revoke h) (s.takeRevoke p h) := by
  unfold State.takeRevoke
  split
  · exact takenAs_refuse rfl (by nofun)
  · rename_i i l hc
    obtain ⟨hl, -⟩ := State.leaseAt_of_checkHandle hc
    split
    · exact takenAs_refuse rfl (by nofun)
    · rename_i hlive
      exact takenAs_conclude rfl (by nofun) (.endLease _ hl (Bool.eq_false_iff.2 hlive)) _

theorem takenAs_detach {port : Byte} (hb : (s.port p).buffer = .pending (.detach port)) :
    TakenAs s p (.detach port) (s.takeDetach p port) := by
  unfold State.takeDetach
  split
  · exact takenAs_refuse rfl (by nofun)
  · exact takenAs_refuse rfl (by nofun)
  · rename_i q hA hq
    exact takenAs_conclude rfl (by nofun) (.detach rfl hb hA) _

theorem takenAs_attach (port : Byte) : TakenAs s p (.attach port) (s.takeAttach p port) := by
  unfold State.takeAttach
  split
  · exact takenAs_refuse rfl (by nofun)
  · exact takenAs_conclude rfl (by nofun) (.attach _) _

theorem takenAs_peek (slot : Byte) : TakenAs s p (.peek slot) (s.takePeek p slot) := by
  unfold State.takePeek
  split
  · exact takenAs_refuse rfl (by nofun)
  · exact takenAs_conclude rfl (by nofun) .stands _

/-- R152: whatever request is taken, its event is one of a change, with the attention units and the answer. -/
theorem takenAs_taken {r : Request} (hb : (s.port p).buffer = .pending r) : TakenAs s p r (s.taken p r) := by
  cases r with
  | acquire a => exact takenAs_acquire s p a
  | renew h newTerm => exact takenAs_renew s p h newTerm
  | release h => exact takenAs_release s p h
  | cancel h => exact takenAs_cancel s p h
  | drive h set kind delay onTime period => exact takenAs_drive s p h set kind delay onTime period
  | query h => exact takenAs_query s p h
  | list | time | lines | status =>
    simp only [State.taken]
    exact takenAs_conclude rfl (by nofun) .stands _
  | ack target gen kinds => exact takenAs_ack s p target gen kinds
  | mask kinds mode => exact takenAs_mask s p kinds mode
  | setLine set keep rest fault qlen access => exact takenAs_setLine s p set keep rest fault qlen access
  | setPort port keep quota ceiling margin window => exact takenAs_setPort s p port keep quota ceiling margin window
  | setHeartbeat inputs keep enable edge debounce => exact takenAs_setHeartbeat s p inputs keep enable edge debounce
  | setClock keep policy mode trim => exact takenAs_setClock s p keep policy mode trim
  | resume => exact takenAs_resume s p
  | revoke h => exact takenAs_revoke s p h
  | detach port => exact takenAs_detach s p hb
  | attach port => exact takenAs_attach s p port
  | peek slot => exact takenAs_peek s p slot
  | softReset =>
    simp only [State.taken]
    exact takenAs_conclude rfl (by nofun) .softReset _

/-! ## What the commands that take no lease event can do -/

/-- The moves of the clock block under the supervision of the reference, and whether CLOCK is posted (R122 to R126,
R128). -/
inductive ClockMove (c : Clock) : Clock → Bool → Prop where
  | silent : ClockMove c { c with silence := Config.silenceLimit } false
  | lost (hs : c.state = .start ∨ c.state = .fallback) : ClockMove c c.lost false
  | lostPosted (hs : c.state = .reference ∨ c.state = .ready) : ClockMove c c.lost true
  | seen (hs : c.state = .ready) : ClockMove c c.edgeSeen false
  | edgeCounted {n : Nat} (hs : c.state = .start ∨ c.state = .fallback) (hn : n ≤ Config.lastQualification) :
      ClockMove c { c.edgeSeen with qual := some n } false
  | toReference (posts : Bool) (hs : c.state = .start ∨ c.state = .fallback) :
      ClockMove c c.edgeSeen.enterReference posts
  | toReady (hs : c.state = .fallback) (hm : c.resume = .manual) :
      ClockMove c { c.edgeSeen with state := .ready, qual := none } true
  | tickCounted (hs : c.state = .reference) :
      ClockMove c { c.edgeSeen with tick := c.tick.map TickProgress.count } false

/-- The clock block replaced. -/
def State.setClockBlock (s : State) (d : Clock) : State := s.updClock fun _ => d

/-- What the commands that take no lease event make of `s`: the transactions, the ticks, the supervision of the
reference, and the ends of gaps. -/
inductive Quiet (s : State) : State → Prop where
  | selnFall (x : Port) :
      Quiet s (s.updPort x fun q => { q with transaction := if s.attached x then .shifting q.buffer else .ignored })
  | ignoredRelease (x : Port) (ht : (s.port x).transaction = .ignored) :
      Quiet s (s.updPort x fun q => { q with transaction := .idle })
  | release {x : Port} {copy : Buffer} (mosi : List Bool) (ht : (s.port x).transaction = .shifting copy) :
      Quiet s (s.updPort x fun q =>
        { q with transaction := .idle, buffer := releasedBuffer x copy q.buffer (bytesOfBits mosi) })
  | tick (hb : BitVec 4) (hr : s.tickReady = true) : Quiet s (s.tickTaken hb)
  | clock {d : Clock} (hr : s.inReset = false) (hd : ClockMove s.clock d false) : Quiet s (s.setClockBlock d)
  | clockPosted {d : Clock} (hr : s.inReset = false) (hd : ClockMove s.clock d true) :
      Quiet s (s.attend none (s.setClockBlock d).postClock)
  | edgeTick {d : Clock} (hb : BitVec 4) (hd : ClockMove s.clock d false)
      (hr : (s.setClockBlock d).tickReady = true) : Quiet s ((s.setClockBlock d).tickTaken hb)
  | gapEnd (x : Port) (hr : s.inReset = false) :
      Quiet s (s.attend none (s.updPort x fun q => { q with gap := none }))

/-- The state that DEVICE_RESET leaves (R176). -/
def State.deviceReset (s : State) : State :=
  { State.reset with
    ports := PerPort.tabulate fun p => { State.reset.port p with transaction := (s.port p).transaction.ignore }
    inputs := Vector.ofFn fun n => { HbInput.reset with pin := (s.input n).pin }
    choices := s.choices
    pending := s.pending }

/-- The state that RESET_RELEASE leaves (R177). -/
def State.resetReleased (s : State) (hb : BitVec 4) (pen : PortSet) : State :=
  { ((s.mapInputs fun n x =>
        { x with level := hb.getLsbD n.val, stable := 0, seeding := false, pin := hb.getLsbD n.val }).mapPorts
      fun p x => { x with pen := pen.getLsbD (portBit p) }).updClock
        fun c => { c with tick := some TickProgress.local } with
    inReset := false }

/-- What a command can make of `s`. -/
inductive Effect (s : State) (c : Instr) : State → Prop where
  /-- The event does not arise (log entry 7). -/
  | stands : Effect s c s
  | request {p : Port} {r : Request} {t : State} (hn : s.nextRequest = some (p, r)) (hc : r.instr = c)
      (ht : TakenAs s p r t) : Effect s c t
  | event {u : State} {scan : Bool} (hc : c.takesRequest = false) (hr : s.inReset = false)
      (h : Change s none u scan) : Effect s c (s.engineEvent scan u)
  | quiet {t : State} (hc : c.takesRequest = false) (h : Quiet s t) : Effect s c t
  | reset (hc : c = .deviceReset) : Effect s c s.deviceReset
  | release (hb : BitVec 4) (pen : PortSet) (hc : c = .resetRelease hb pen) (hr : s.inReset = true) :
      Effect s c (s.resetReleased hb pen)

/-- The outcome is a next state that the command can make. -/
def Takes (s : State) (c : Instr) (o : Host.Outcome State Fault Refusal) : Prop := ∃ t, o = .next t ∧ Effect s c t

section Takes

variable {s : State} {c : Instr}

theorem takes_next {t : State} (h : Effect s c t) : Takes s c (.next t) := ⟨t, rfl, h⟩

theorem takes_self : Takes s c (.next s) := takes_next .stands

/-- R155: an event of slot, line or input `i`, taken where it is due. -/
theorem takes_dueEvent {n : Nat} (i : Nat) {due : Fin n → Bool} {scan : Bool} {u : Fin n → State}
    (hc : c.takesRequest = false) (hu : ∀ j, due j = true → Change s none (u j) scan) :
    Takes s c
      (if h : i < n then
        if !s.inReset && due ⟨i, h⟩ then .next (s.engineEvent scan (u ⟨i, h⟩)) else .next s
      else .next s) := by
  split
  · split
    · rename_i h
      obtain ⟨hr, hd⟩ := Bool.and_eq_true_iff.1 h
      exact takes_next (.event hc (by simpa using hr) (hu _ hd))
    · exact takes_self
  · exact takes_self

end Takes

section Due

variable {s : State} {i : Fin 16}

/-- R59, R75: the lease of an expiry event that is open holds. -/
theorem State.live_of_expiryDue (h : s.expiryDue i = true) : ∃ l, s.leaseAt i = some l ∧ l.isEnded = false := by
  unfold State.expiryDue at h
  split at h
  · rename_i l hl
    refine ⟨l, hl, ?_⟩
    cases hp : l.phase <;> simp_all [Lease.holding, Lease.isEnded]
  · cases h

theorem State.live_of_waitDue (h : s.waitDue i = true) : ∃ l, s.leaseAt i = some l ∧ l.isEnded = false := by
  unfold State.waitDue at h
  split at h
  · rename_i l hl
    refine ⟨l, hl, ?_⟩
    cases hp : l.phase <;> simp_all [Lease.waitDeadline, Lease.isEnded]
  · cases h

theorem State.live_of_yieldDue (h : s.yieldDue i = true) : ∃ l, s.leaseAt i = some l ∧ l.isEnded = false := by
  unfold State.yieldDue at h
  split at h
  · rename_i l hl
    refine ⟨l, hl, ?_⟩
    cases hp : l.phase <;> simp_all [Lease.yieldDeadline, Lease.isEnded]
  · cases h

end Due

/-- R146, R150: what the edges of SELN_x can do. -/
theorem takes_selnFall (x : Port) : Takes s (.selnFall x) (execSelnFall x s) := by
  unfold execSelnFall
  split
  · exact takes_next (.quiet rfl (.selnFall x))
  all_goals exact takes_self

theorem takes_transactionRelease (x : Port) (mosi : List Bool) :
    Takes s (.transactionRelease x mosi) (execTransactionRelease x mosi s) := by
  unfold execTransactionRelease
  split
  · exact takes_self
  · exact takes_next (.quiet rfl (.ignoredRelease x ‹_›))
  · exact takes_next (.quiet rfl (.release mosi ‹_›))

theorem takes_tick (hb : BitVec 4) : Takes s (.tick hb) (execTick hb s) := by
  unfold execTick
  split
  · exact takes_next (.quiet rfl (.tick hb ‹_›))
  · exact takes_self

theorem takes_gapEnd (x : Port) : Takes s (.gapEnd x) (execGapEnd x s) := by
  unfold execGapEnd
  split
  · exact takes_self
  · rename_i h
    simp only [Bool.or_eq_true, not_or, Bool.not_eq_true] at h
    exact takes_next (.quiet rfl (.gapEnd x h.1))

theorem takes_lossEvent : Takes s .lossEvent (execLossEvent s) := by
  unfold execLossEvent
  split
  · exact takes_self
  · rename_i hr
    have hr : s.inReset = false := by simpa using hr
    split
    · simp only
      split
      · exact takes_next (.quiet rfl (.clock hr (.lost (.inl ‹_›))))
      · exact takes_next (.quiet rfl (.clock hr (.lost (.inr ‹_›))))
      · exact takes_next (.quiet rfl (.clockPosted hr (.lostPosted (.inl ‹_›))))
      · exact takes_next (.quiet rfl (.clockPosted hr (.lostPosted (.inr ‹_›))))
    · exact takes_next (.quiet rfl (.clock hr .silent))

/-- R123, R126: the qualification that an edge makes, or the event that stands for edges. -/
theorem quiet_qualify (hr : s.inReset = false) (hs : s.clock.state = .start ∨ s.clock.state = .fallback) :
    Quiet s (s.updClock Clock.edgeSeen).qualify := by
  have hstate : (s.updClock Clock.edgeSeen).clock.state = s.clock.state := rfl
  have hresume : (s.updClock Clock.edgeSeen).clock.resume = s.clock.resume := rfl
  unfold State.qualify
  rw [hstate, hresume]
  split
  · exact .clock hr (.toReference false hs)
  · rename_i hf
    split
    · exact .clockPosted hr (.toReady hf ‹_›)
    · exact .clockPosted hr (.toReference true hs)
  all_goals simp_all

theorem takes_qualificationEvent : Takes s .qualificationEvent (execQualificationEvent s) := by
  unfold execQualificationEvent
  split
  · exact takes_self
  · rename_i hr
    have hr : s.inReset = false := by simpa using hr
    split
    · exact takes_next (.quiet rfl (quiet_qualify s hr (.inl ‹_›)))
    · exact takes_next (.quiet rfl (quiet_qualify s hr (.inr ‹_›)))
    all_goals exact takes_self

/-- R122, R123: an edge of REFCLK outside REFERENCE and READY is one more towards the qualification. -/
theorem takes_refclkEdge_qualifying (hr : s.inReset = false)
    (hs : s.clock.state = .start ∨ s.clock.state = .fallback) : Takes s .refclkEdge (execRefclkEdge s) := by
  have hedge : execRefclkEdge s =
      match s.clock.qual with
      | none => .next (s.setClockBlock { s.clock.edgeSeen with qual := some 0 })
      | some n =>
        if n < Config.lastQualification then .next (s.setClockBlock { s.clock.edgeSeen with qual := some (n + 1) })
        else .next (s.updClock Clock.edgeSeen).qualify := by
    obtain hs | hs := hs <;> simp only [execRefclkEdge, hr, hs, Bool.false_eq_true, if_false] <;> rfl
  rw [hedge]
  split
  · exact takes_next (.quiet rfl (.clock hr (.edgeCounted hs (Nat.zero_le _))))
  · split
    · exact takes_next (.quiet rfl (.clock hr (.edgeCounted hs ‹_›)))
    · exact takes_next (.quiet rfl (quiet_qualify s hr hs))

/-- R116: an edge of REFCLK in REFERENCE is counted, and makes the tick that it completes. -/
theorem takes_refclkEdge_reference (hr : s.inReset = false) (hs : s.clock.state = .reference) :
    Takes s .refclkEdge (execRefclkEdge s) := by
  rw [execRefclkEdge_reference s hr hs]
  refine takes_next ?_
  split
  · rename_i h
    exact .quiet rfl (.edgeTick _ (.tickCounted hs) (Bool.and_eq_true_iff.1 h).1)
  · exact .quiet rfl (.clock hr (.tickCounted hs))

theorem takes_refclkEdge : Takes s .refclkEdge (execRefclkEdge s) := by
  by_cases hr : s.inReset = true
  · rw [execRefclkEdge, if_pos hr]
    exact takes_self
  · have hr : s.inReset = false := by simpa using hr
    cases hs : s.clock.state with
    | start => exact takes_refclkEdge_qualifying s hr (.inl hs)
    | fallback => exact takes_refclkEdge_qualifying s hr (.inr hs)
    | reference => exact takes_refclkEdge_reference s hr hs
    | ready =>
      simp only [execRefclkEdge, hr, hs, Bool.false_eq_true, if_false]
      exact takes_next (.quiet rfl (.clock hr (.seen hs)))

theorem takes_resetRelease (hb : BitVec 4) (pen : PortSet) :
    Takes s (.resetRelease hb pen) (execResetRelease hb pen s) := by
  unfold execResetRelease
  split
  · exact takes_next (.release hb pen rfl ‹_›)
  · exact takes_self

theorem takes_penChange (x : Port) (high : Bool) : Takes s (.penChange x high) (execPenChange x high s) := by
  unfold execPenChange
  split
  · exact takes_self
  · rename_i h
    simp only [Bool.or_eq_true, not_or, Bool.not_eq_true] at h
    exact takes_next (.event rfl h.1 (.pen x high rfl))

/-- A command that takes a request takes the one that is next, or leaves the state. -/
theorem takes_request {c : Instr} (hc : c.takesRequest = true) : Takes s c (exec c s) := by
  obtain hstays | ⟨p, r, hn, hr, htaken⟩ := exec_takesRequest_cases s hc
  · rw [hstays]
    exact takes_self
  · rw [htaken]
    exact takes_next (.request hn hr (takenAs_taken s p (s.nextRequest_pending hn).2))

/-- Every command is taken: it goes on to a state that it can make. -/
theorem takes_exec (c : Instr) : Takes s c (exec c s) := by
  cases c with
  | selnFall x => exact takes_selnFall s x
  | transactionRelease x mosi => exact takes_transactionRelease s x mosi
  | tick hb => exact takes_tick s hb
  | renewalClaim n =>
    exact takes_dueEvent n (due := fun m => decide (0 < (s.input m).claims)) (u := s.claimTaken) rfl
      fun m _ => .claim m
  | expiry i =>
    exact takes_dueEvent i (due := s.expiryDue) (u := (s.endLease · .expired)) rfl fun j hd =>
      have ⟨_, hl, hlive⟩ := State.live_of_expiryDue hd
      .endLease _ hl hlive
  | waitDeadline i =>
    exact takes_dueEvent i (due := s.waitDue) (u := (s.endLease · .waitExpired)) rfl fun j hd =>
      have ⟨_, hl, hlive⟩ := State.live_of_waitDue hd
      .endLease _ hl hlive
  | yieldDeadline i =>
    exact takes_dueEvent i (due := s.yieldDue) (u := (s.endLease · .preempted)) rfl fun j hd =>
      have ⟨_, hl, hlive⟩ := State.live_of_yieldDue hd
      .endLease _ hl hlive
  | quarantineDeadline l =>
    exact takes_dueEvent l (due := s.quarantineDue)
      (u := fun j => s.mapLines fun m x => if m = j then x.toRest else x) rfl fun j hd => .rest hd
  | warningEvent i =>
    exact takes_dueEvent i (due := s.warningDue) (u := (s.updLease · Lease.warn)) rfl fun j _ => .warn j
  | lossEvent => exact takes_lossEvent s
  | qualificationEvent => exact takes_qualificationEvent s
  | gapEnd x => exact takes_gapEnd s x
  | penChange x high => exact takes_penChange s x high
  | deviceReset => exact takes_next (.reset rfl)
  | resetRelease hb pen => exact takes_resetRelease s hb pen
  | refclkEdge => exact takes_refclkEdge s
  | _ => exact takes_request s rfl

theorem effect_of_exec {s t : State} {c : Instr} (h : exec c s = .next t) : Effect s c t := by
  obtain ⟨t', ht', he⟩ := takes_exec s c
  cases h.symm.trans ht'
  exact he

/-! ## What a step can do (log entries 4 and 5) -/

/-- A step runs a command, on the state with another queue or another count of choices, or lets a period of the
local oscillator pass. -/
theorem step_cases {s t : State} (h : step s = .next t) :
    (∃ (q : List Instr) (k : Nat) (c : Instr), Effect { s with pending := q, choices := k } c t)
      ∨ s.openEvents = [] ∧ t = s.oscillate := by
  unfold step at h
  split at h
  · rename_i c rest _
    exact .inl ⟨rest, s.choices, c, effect_of_exec h⟩
  · unfold idleStep at h
    split at h
    · rename_i ho
      exact .inr ⟨ho, (Host.Outcome.next.inj h).symm⟩
    · exact .inl ⟨s.pending, s.choices, _, effect_of_exec h⟩
    · exact .inl ⟨s.pending, s.choices + 1, _, effect_of_exec h⟩

/-- A law that the queue of commands and the count of choices do not enter is kept by every step, where every command
and every period of the oscillator keeps it. -/
theorem law_of_step {P : State → Prop} (hframe : ∀ s q k, P s → P { s with pending := q, choices := k })
    (hexec : ∀ {s t c}, Effect s c t → P s → P t) (hidle : ∀ s, s.openEvents = [] → P s → P s.oscillate)
    {s t : State} (hs : P s) (h : step s = .next t) : P t := by
  obtain ⟨q, k, c, he⟩ | ⟨ho, rfl⟩ := step_cases h
  · exact hexec he (hframe s q k hs)
  · exact hidle s ho hs

end Sys2Proof.Machine
end

section
/-! SUPPORT. What the scan and the evaluation of an event leave alone, the induction over them, and the rule that a
law of the table is kept (R38, R41, R68). -/

namespace Sys2Proof.Machine

variable (s : State)

/-! ## The scan and the evaluation change the table, the queue and the lines alone -/

/-- `t` is `s` but for the table, the queue and the lines. -/
def OnlyTable (s t : State) : Prop := t = { s with slots := t.slots, queue := t.queue, lines := t.lines }

theorem OnlyTable.refl : OnlyTable s s := rfl

theorem OnlyTable.trans {s t u : State} (h : OnlyTable s t) (h' : OnlyTable t u) : OnlyTable s u := by
  unfold OnlyTable at *
  rw [h', h]

theorem onlyTable_mapSlots (f : Fin 16 → Slot → Slot) : OnlyTable s (s.mapSlots f) := by
  rw [OnlyTable, State.mapSlots]

theorem onlyTable_mapLines (f : Fin 16 → Line → Line) : OnlyTable s (s.mapLines f) := by
  rw [OnlyTable, State.mapLines]

theorem onlyTable_setQueue (q : List (Fin 16)) : OnlyTable s (s.setQueue q) := rfl

theorem onlyTable_startYields : OnlyTable s s.startYields := onlyTable_mapSlots s _

theorem onlyTable_withdrawYields : OnlyTable s s.withdrawYields := onlyTable_mapSlots s _

theorem onlyTable_endLease (i : Fin 16) (c : Cause) : OnlyTable s (s.endLease i c) :=
  ((onlyTable_mapLines s _).trans (onlyTable_setQueue _ _)).trans (onlyTable_mapSlots _ _)

theorem onlyTable_grantWaiter (i : Fin 16) (l : Lease) : OnlyTable s (s.grantWaiter i l) :=
  ((onlyTable_setQueue s _).trans (onlyTable_mapLines _ _)).trans (onlyTable_mapSlots _ _)

theorem onlyTable_scanStep (i : Fin 16) : OnlyTable s (s.scanStep i) := by
  obtain hstays | ⟨l, -, -, -, -, hgrant⟩ := s.scanStep_cases i
  · rw [hstays]
    exact .refl s
  · rw [hgrant]
    exact onlyTable_grantWaiter s i l

theorem onlyTable_grantScan : OnlyTable s s.grantScan :=
  List.foldlRecOn (motive := fun t : State => OnlyTable s t) s.queue State.scanStep (.refl s)
    fun t ht i _ => ht.trans (onlyTable_scanStep t i)

theorem onlyTable_preemptAll (js : List (Fin 16)) : OnlyTable s (s.preemptAll js) :=
  List.foldlRecOn (motive := fun t : State => OnlyTable s t) js _ (.refl s)
    fun t ht j _ => ht.trans (onlyTable_endLease t j _)

theorem onlyTable_evaluate (n : Nat) : ∀ s : State, OnlyTable s (State.evaluate n s).1 := by
  induction n with
  | zero => exact fun s => .refl s
  | succ n ih =>
    intro s
    simp only [State.evaluate]
    split
    · exact (onlyTable_startYields s).trans (onlyTable_withdrawYields _)
    · exact (((onlyTable_startYields s).trans (onlyTable_preemptAll _ _)).trans
        (onlyTable_grantScan _)).trans (ih _)

theorem onlyTable_settle (scan : Bool) : OnlyTable s (s.settle scan).1 := by
  unfold State.settle
  split
  · exact (onlyTable_grantScan s).trans (onlyTable_evaluate _ _)
  · exact onlyTable_evaluate _ _

namespace OnlyTable

variable {s t : State} (h : OnlyTable s t)

include h

theorem ports : t.ports = s.ports := (congrArg State.ports h :)
theorem port (p : Port) : t.port p = s.port p := (congrArg (fun u : State => u.ports.get p) h :)
theorem input (n : Fin 4) : t.input n = s.input n := (congrArg (fun u : State => u.input n) h :)
theorem inputs : t.inputs = s.inputs := (congrArg State.inputs h :)
theorem pointer : t.pointer = s.pointer := (congrArg State.pointer h :)
theorem clock : t.clock = s.clock := (congrArg State.clock h :)
theorem inReset : t.inReset = s.inReset := (congrArg State.inReset h :)
theorem choices : t.choices = s.choices := (congrArg State.choices h :)
theorem pending : t.pending = s.pending := (congrArg State.pending h :)
theorem aside : Aside s t := ⟨h.clock, h.inputs, h.inReset, h.choices, h.pending⟩

end OnlyTable

@[simp] theorem State.port_settle (scan : Bool) (p : Port) : (s.settle scan).1.port p = s.port p :=
  (onlyTable_settle s scan).port p

@[simp] theorem State.input_settle (scan : Bool) (n : Fin 4) : (s.settle scan).1.input n = s.input n :=
  (onlyTable_settle s scan).input n

@[simp] theorem State.inReset_settle (scan : Bool) : (s.settle scan).1.inReset = s.inReset :=
  (onlyTable_settle s scan).inReset

@[simp] theorem State.attached_settle (scan : Bool) (p : Port) : (s.settle scan).1.attached p = s.attached p := by
  simp only [State.attached, State.inReset_settle, State.port_settle]

/-! ## Induction over the scan and the evaluation -/

section Induct

variable {P : State → Prop}
  (grant : ∀ s i l, s.leaseAt i = some l → l.isWaiting = true → s.orderEligible i = true →
    s.allFree l.lines = true → P s → P (s.grantWaiter i l))

include grant

/-- R39: what every grant keeps, a grant scan keeps. -/
theorem State.grantScan_induct {s : State} (h : P s) : P s.grantScan :=
  List.foldlRecOn (motive := P) s.queue State.scanStep h fun t ht i _ => by
    obtain hstays | ⟨l, hl, hw, ho, hf, hgrant⟩ := t.scanStep_cases i
    · rwa [hstays]
    · rw [hgrant]
      exact grant t i l hl hw ho hf ht

variable (start : ∀ s, P s → P s.startYields) (preempt : ∀ s j, P s → P (s.endLease j .preempted))
  (withdraw : ∀ s, P s → P s.withdrawYields)

include start preempt withdraw

/-- R68: what grants, starts, withdrawals and pre-emptions keep, an evaluation keeps. -/
theorem State.evaluate_induct (n : Nat) : ∀ {s : State}, P s → P (State.evaluate n s).1 := by
  induction n with
  | zero => exact fun h => h
  | succ n ih =>
    intro s h
    simp only [State.evaluate]
    split
    · exact withdraw _ (start _ h)
    · exact ih (State.grantScan_induct grant
        (List.foldlRecOn (motive := P) _ _ (start _ h) fun t ht j _ => preempt t j ht))

/-- R38, R68: so does the settling of an event. -/
theorem State.settle_induct {s : State} (h : P s) (scan : Bool) : P (s.settle scan).1 := by
  refine State.evaluate_induct grant start preempt withdraw _ ?_
  split
  · exact State.grantScan_induct grant h
  · exact h

end Induct

/-! ## Laws of the table -/

theorem TableStands.refl : TableStands s s := ⟨fun _ => rfl, rfl, fun _ => rfl⟩

/-- A clock block that is replaced leaves everything else. -/
@[simp] theorem State.clock_setClockBlock (d : Clock) : (s.setClockBlock d).clock = d := rfl

/-- DEVICE_RESET leaves the table, the queue and the lines of the reset state (R176). -/
theorem tableStands_deviceReset : TableStands State.reset s.deviceReset := ⟨fun _ => rfl, rfl, fun _ => rfl⟩

/-- The attention units and the answer leave the table, the queue and the lines. -/
theorem tableStands_attend (t : State) (acked : Option Port) : TableStands t (s.attend acked t) :=
  ⟨fun _ => rfl, rfl, fun _ => rfl⟩

theorem tableStands_concluded (t : State) (acked : Option Port) (p : Port) (c : Command) (a : Answer) :
    TableStands t ((s.attend acked t).respond p c a) :=
  ⟨fun i => by rw [State.slot_respond, State.slot_attend], by rw [State.queue_respond, State.queue_attend],
    fun m => by rw [State.line_respond, State.line_attend]⟩

theorem tableStands_oscillate : TableStands s s.oscillate := by
  unfold State.oscillate
  split
  · exact .refl s
  · exact ⟨fun _ => rfl, rfl, fun _ => rfl⟩

/-- The commands that take no lease event leave the table, the queue and the lines, but for a tick's patterns. -/
theorem quiet_table {t : State} (h : Quiet s t) :
    TableStands s t ∨ ∃ (u : State) (hb : BitVec 4), TableStands s u ∧ t = u.tickTaken hb := by
  cases h with
  | tick hb => exact .inr ⟨s, hb, .refl s, rfl⟩
  | @edgeTick d hb => exact .inr ⟨s.setClockBlock d, hb, ⟨fun _ => rfl, rfl, fun _ => rfl⟩, rfl⟩
  | _ => exact .inl ⟨fun _ => rfl, rfl, fun _ => rfl⟩

/-- A law of the table, the queue and the lines is kept by every step, where the settled events and the ticks keep
it and it holds at reset. -/
theorem tableLaw_of_step {P : State → Prop} (congr : ∀ {s t}, TableStands s t → P s → P t)
    (event : ∀ {s asker u scan}, Change s asker u scan → P s → P (u.settle scan).1)
    (tick : ∀ {s : State} {hb}, P s → P (s.tickTaken hb)) (reset : P State.reset) {s t : State} (hs : P s)
    (h : step s = .next t) : P t := by
  refine law_of_step (P := P) (fun s q k => congr ⟨fun _ => rfl, rfl, fun _ => rfl⟩) (fun {s t c} he hs => ?_)
    (fun s _ => congr (tableStands_oscillate s)) hs h
  cases he with
  | stands => exact hs
  | @request p r _ _ _ ht =>
    obtain ⟨u, scan, acked, a, hu, -, rfl⟩ := ht
    exact congr (tableStands_concluded s _ acked p r.command a) (event hu hs)
  | @event u scan _ _ hu => exact congr (tableStands_attend s _ none) (event hu hs)
  | quiet _ hq =>
    obtain ht | ⟨u, hb, hu, rfl⟩ := quiet_table s hq
    · exact congr ht hs
    · exact tick (congr hu hs)
  | reset => exact congr (tableStands_deviceReset s) reset
  | release hb pen => exact congr (s := s) ⟨fun _ => rfl, rfl, fun _ => rfl⟩ hs

end Sys2Proof.Machine
end

section
/-! SUPPORT. The board: what of the table, the queue and the lines decides who waits for whom; the changes that leave
it, and the moves that do not (chapters 2 and 4). -/

namespace Sys2Proof.Machine

variable (s : State)

/-! ## Where a lease stands (R11, R27, R67) -/

/-- What of a lease decides who waits for whom. -/
structure Standing where
  holder    : Port
  lines     : LineSet
  level     : Fin 4
  yieldable : Bool
  waiting   : Bool
  holds     : Bool

def Lease.standing (l : Lease) : Standing :=
  { holder := l.holder, lines := l.lines, level := l.level, yieldable := l.yieldable, waiting := l.isWaiting,
    holds := l.holding.isSome }

theorem Lease.live_eq_standing (l : Lease) : l.live = (l.standing.waiting || l.standing.holds) := by
  cases hp : l.phase <;> simp [Lease.standing, Lease.live, Lease.isEnded, Lease.isWaiting, Lease.holding, hp]

@[simp] theorem Lease.standing_with_flags (l : Lease) (n : Notices) : { l with flags := n }.standing = l.standing := rfl

@[simp] theorem Lease.standing_startYield (d : Word) (l : Lease) : (l.startYield d).standing = l.standing := by
  cases hp : l.phase <;> simp [Lease.standing, Lease.startYield, Lease.isWaiting, Lease.holding, hp]

@[simp] theorem Lease.standing_withdraw (l : Lease) : l.withdraw.standing = l.standing := by
  cases hp : l.phase <;> simp [Lease.standing, Lease.withdraw, Lease.isWaiting, Lease.holding, hp]

@[simp] theorem Lease.standing_warn (l : Lease) : l.warn.standing = l.standing := by
  cases hp : l.phase <;> simp [Lease.standing, Lease.warn, Lease.isWaiting, Lease.holding, hp]

@[simp] theorem Lease.standing_renew (clock : Word) (margin : Ticks) (l : Lease) :
    (l.renew clock margin).standing = l.standing := by
  cases hp : l.phase <;> simp [Lease.standing, Lease.renew, Lease.isWaiting, Lease.holding, hp]

@[simp] theorem Lease.standing_with_term (l : Lease) (t : Ticks) : { l with term := t }.standing = l.standing := rfl

@[simp] theorem Lease.standing_claimed (clock : Word) (margin : Ticks) (n : Fin 4) (l : Lease) :
    (l.claimed clock margin n).standing = l.standing := by
  unfold Lease.claimed
  split
  · split <;> simp
  all_goals rfl

/-! ## Changes that leave the board -/

/-- The queue, the standing of every lease, and which lines are bound to whom and FREE, stand. -/
structure SameBoard (s t : State) : Prop where
  leases : ∀ i, (t.leaseAt i).map Lease.standing = (s.leaseAt i).map Lease.standing
  queue : t.queue = s.queue
  bound : ∀ m, (t.line m).boundSlot = (s.line m).boundSlot
  free : ∀ m, (t.line m).isFree = (s.line m).isFree

theorem sameBoard_of_leases {s t : State}
    (hleases : ∀ i, (t.leaseAt i).map Lease.standing = (s.leaseAt i).map Lease.standing) (hqueue : t.queue = s.queue)
    (hline : ∀ m, t.line m = s.line m) : SameBoard s t :=
  ⟨hleases, hqueue, fun m => by rw [hline], fun m => by rw [hline]⟩

theorem SameBoard.trans {s t u : State} (h : SameBoard s t) (h' : SameBoard t u) : SameBoard s u :=
  ⟨fun i => (h'.leases i).trans (h.leases i), h'.queue.trans h.queue, fun m => (h'.bound m).trans (h.bound m),
    fun m => (h'.free m).trans (h.free m)⟩

theorem sameBoard_of_stands {s t : State} (h : TableStands s t) : SameBoard s t := by
  obtain ⟨hslot, hqueue, hline⟩ := h
  exact sameBoard_of_leases (fun i => by rw [State.leaseAt, hslot]; rfl) hqueue hline

/-- A change of leases that leaves where each stands leaves the board. -/
theorem sameBoard_mapLeases (f : Fin 16 → Lease → Lease) (hf : ∀ i l, (f i l).standing = l.standing) :
    SameBoard s (s.mapSlots fun i x => { x with lease := x.lease.map (f i) }) := by
  refine sameBoard_of_leases (fun i => ?_) (s.queue_mapSlots _) (s.line_mapSlots _)
  simp only [State.leaseAt, State.slot_mapSlots, Option.map_map]
  exact Option.map_congr fun l _ => hf i l

theorem sameBoard_updLease (i : Fin 16) (f : Lease → Lease) (hf : ∀ l, (f l).standing = l.standing) :
    SameBoard s (s.updLease i f) := by
  refine sameBoard_of_leases (fun j => ?_) (s.queue_updSlot _ _) (s.line_updSlot _ _)
  rw [State.leaseAt_updLease]
  split
  · rw [Option.map_map]
    exact Option.map_congr fun l _ => hf l
  · rfl

/-- A change of lines that leaves whom each is bound to, and which are FREE, leaves the board. -/
theorem sameBoard_mapLines (f : Fin 16 → Line → Line)
    (hf : ∀ m x, (f m x).boundSlot = x.boundSlot ∧ (f m x).isFree = x.isFree) : SameBoard s (s.mapLines f) :=
  ⟨fun i => by rw [State.leaseAt, State.slot_mapLines, ← State.leaseAt], s.queue_mapLines _,
    fun m => by rw [State.line_mapLines, (hf m _).1],
    fun m => by rw [State.line_mapLines, (hf m _).2]⟩

theorem Line.bound_free_tick (x : Line) : x.tick.boundSlot = x.boundSlot ∧ x.tick.isFree = x.isFree := by
  unfold Line.tick
  split <;> simp_all [Line.boundSlot, Line.isFree]

theorem Line.bound_free_order (d : HolderDrive) (x : Line) :
    (x.order d).boundSlot = x.boundSlot ∧ (x.order d).isFree = x.isFree := by
  cases h : x.occ <;> simp [Line.order, Line.boundSlot, Line.isFree, h]

theorem Line.bound_free_configure (rest fault : Setting Drive) (qlen : Setting Byte) (access : Setting PortSet)
    (x : Line) :
    (x.configure rest fault qlen access).boundSlot = x.boundSlot
      ∧ (x.configure rest fault qlen access).isFree = x.isFree := by
  cases h : x.occ <;> simp [Line.configure, Line.boundSlot, Line.isFree, h]

theorem sameBoard_startYields : SameBoard s s.startYields :=
  sameBoard_mapLeases s _ fun i l => by split <;> simp

theorem sameBoard_withdrawYields : SameBoard s s.withdrawYields :=
  sameBoard_mapLeases s _ fun i l => by split <;> simp

/-- R121: a tick leaves the board. -/
theorem sameBoard_tickTaken (hb : BitVec 4) : SameBoard s (s.tickTaken hb) :=
  ⟨fun i => by rw [State.leaseAt, State.slot_tickTaken]; rfl, s.queue_tickTaken hb,
    fun m => by rw [State.line_tickTaken, (s.line m).bound_free_tick.1],
    fun m => by rw [State.line_tickTaken, (s.line m).bound_free_tick.2]⟩

/-! ## The changes that move the board -/

/-- `u` is `s` with the leases of the slots `gone` off the board: FREE, or ENDED with the causes of R13. -/
structure Leaves (s u : State) (gone : Fin 16 → Bool) (voluntary : Bool) : Prop where
  vacated : Vacated s u u gone voluntary
  leases : ∀ j, gone j = true →
    u.leaseAt j = none ∨ ∃ a c, s.leaseAt j = some a ∧ u.leaseAt j = some (a.finish c)

/-- The changes of an event that move the board. -/
inductive Moves (s : State) (asker : Option Port) : State → Bool → Prop where
  | grantNow {p : Port} {a : AcquireArgs} {level : Fin 4} {i : Fin 16} (hp : asker = some p)
      (hc : s.checkAcquire p a = .ok (level, i)) (ho : s.wouldBeEligible a.lines level.val = true)
      (hf : s.allFree a.lines = true) : Moves s asker (s.grantNow i (s.newLease p a level)) false
  | placeWaiting {p : Port} {a : AcquireArgs} {level : Fin 4} {i : Fin 16} (hp : asker = some p)
      (hc : s.checkAcquire p a = .ok (level, i)) : Moves s asker (s.placeWaiting i (s.newLease p a level)) true
  | rest {m : Fin 16} (hd : s.quarantineDue m = true) :
      Moves s asker (s.mapLines fun l x => if l = m then x.toRest else x) true
  | leave {u : State} {scan : Bool} (gone : Fin 16 → Bool) (voluntary : Bool) (h : Leaves s u gone voluntary)
      (hscan : scan = false → ∀ j, gone j = true → ∃ l, s.leaseAt j = some l ∧ l.isEnded = true) :
      Moves s asker u scan
  | softReset : Moves s asker s.softResetChanges true

theorem settlesAlike_of_onlyTable {s t : State} (h : OnlyTable s t) : SettlesAlike s t :=
  ⟨h.clock, fun q => by rw [h.port]; exact ⟨rfl, rfl⟩⟩

theorem onlyTable_freeSlot (i : Fin 16) : OnlyTable s (s.freeSlot i) :=
  ((onlyTable_mapLines s _).trans (onlyTable_setQueue _ _)).trans (onlyTable_mapSlots _ _)

theorem mem_allSlots (i : Fin 16) : i ∈ allSlots := by
  revert i
  decide

theorem mem_allLines (m : Fin 16) : m ∈ allLines := mem_allSlots m

/-- R12: the lease of a slot returned to FREE leaves the board. -/
theorem leaves_freeSlot (i : Fin 16) : Leaves s (s.freeSlot i) (fun j => j == i) true := by
  refine ⟨⟨fun j => ?_, fun m => ?_, ?_, ?_⟩, fun j hj => .inl ?_⟩
  · rw [State.slot_freeSlot]
    by_cases h : j = i <;> simp [h]
  · rw [State.line_freeSlot]
    cases hb : (s.line m).boundSlot <;> simp
  · rw [State.queue_freeSlot]
    exact List.filter_congr fun j _ => by rw [Bool.eq_iff_iff]; simp
  · exact settlesAlike_of_onlyTable (onlyTable_freeSlot s i)
  · rw [State.leaseAt, State.slot_freeSlot, if_pos (by simpa using hj), Slot.toFree]
    split
    · rfl
    · assumption

/-- R13: so does a lease that ends. -/
theorem leaves_endLease (i : Fin 16) (cause : Cause) : Leaves s (s.endLease i cause) (fun j => j == i) false := by
  refine ⟨⟨fun j => ?_, fun m => ?_, ?_, ?_⟩, fun j hj => ?_⟩
  · by_cases h : j = i
    · simp [h]
    · simp [State.endLease, State.updLease, State.dequeue, State.unbindInvoluntary, h]
  · rw [State.line_endLease]
    cases hb : (s.line m).boundSlot <;> simp
  · rw [State.queue_endLease]
    exact List.filter_congr fun j _ => by rw [Bool.eq_iff_iff]; simp
  · exact settlesAlike_of_onlyTable (onlyTable_endLease s i cause)
  · rw [State.leaseAt_endLease, if_pos (eq_of_beq hj)]
    cases hl : s.leaseAt j with
    | none => exact .inl rfl
    | some a => exact .inr ⟨a, cause, rfl, rfl⟩

/-- R170: and the leases of a port that is detached. -/
theorem leaves_detachPort {q : Port} {f : PortState → PortState}
    (hf : ∀ x, (f x).margin = x.margin ∧ (f x).window = x.window) :
    Leaves s ((s.updPort q f).detachPort q) (fun j => (s.slot j).heldBy q) false := by
  refine ⟨⟨fun j => ?_, fun m => ?_, ?_, ⟨?_, fun r => ?_⟩⟩, fun j hj => .inl ?_⟩
  · by_cases h : (s.slot j).heldBy q = true <;> simp [State.detachPort, State.dropLeases, h]
  · simp only [State.detachPort, State.dropLeases, State.line_updPort, State.line_mapSlots, State.line_setQueue,
      State.line_mapLines, State.slot_updPort]
    rfl
  · simp [State.detachPort, State.dropLeases]
  · simp [State.detachPort, State.dropLeases]
  · simp only [State.detachPort, State.dropLeases, State.port_updPort, State.port_mapSlots, State.port_setQueue,
      State.port_mapLines]
    split
    · exact hf _
    · exact ⟨rfl, rfl⟩
  · simp [State.leaseAt, State.detachPort, State.dropLeases, hj, Slot.toFree_eq]

/-- R167: a change of attachment detaches the port, or leaves the board. -/
theorem changeAttach_cases {q : Port} {f : PortState → PortState}
    (hf : ∀ x, (f x).margin = x.margin ∧ (f x).window = x.window) (asker : Option Port) :
    SameBoard s (s.changeAttach q f).1 ∧ (s.changeAttach q f).2 = false
      ∨ Moves s asker (s.changeAttach q f).1 (s.changeAttach q f).2 := by
  unfold State.changeAttach
  simp only
  split
  · refine .inr (.leave _ _ (leaves_detachPort s hf) fun hscan j hj => ?_)
    simp only [State.holdsSlots, List.any_eq_false] at hscan
    exact absurd hj (hscan j (mem_allSlots j))
  · exact .inl ⟨sameBoard_of_stands ⟨fun _ => rfl, rfl, fun _ => rfl⟩, rfl⟩

theorem tableStands_updPort (p : Port) (f : PortState → PortState) : TableStands s (s.updPort p f) :=
  ⟨fun _ => rfl, rfl, fun _ => rfl⟩

theorem tableStands_mapInputs (f : Fin 4 → HbInput → HbInput) : TableStands s (s.mapInputs f) :=
  ⟨fun _ => rfl, rfl, fun _ => rfl⟩

/-- R56: an evaluation of warnings leaves the board. -/
theorem sameBoard_warnOnMargin (q : Port) (margin : Setting Ticks) : SameBoard s (s.warnOnMargin q margin) := by
  unfold State.warnOnMargin
  split
  · exact sameBoard_mapLeases s _ fun _ l => by split <;> simp
  all_goals exact sameBoard_of_stands (.refl s)

/-- What an event makes of the board: it leaves it, without a scan, or moves it. -/
theorem change_cases {u : State} {asker : Option Port} {scan : Bool} (h : Change s asker u scan) :
    SameBoard s u ∧ scan = false ∨ Moves s asker u scan := by
  have stands {s t : State} (ht : TableStands s t) : SameBoard s t := sameBoard_of_stands ht
  cases h with
  | stands => exact .inl ⟨stands (.refl s), rfl⟩
  | grantNow hp hc ho hf => exact .inr (.grantNow hp hc ho hf)
  | placeWaiting hp hc => exact .inr (.placeWaiting hp hc)
  | freeLive => exact .inr (.leave _ _ (leaves_freeSlot s _) nofun)
  | freeEnded hl hended =>
    refine .inr (.leave _ _ (leaves_freeSlot s _) fun _ j hj => ⟨_, ?_, hended⟩)
    rwa [eq_of_beq hj]
  | clearFlags i kinds => exact .inl ⟨sameBoard_updLease s i _ fun _ => rfl, rfl⟩
  | order i lines hd =>
    refine .inl ⟨sameBoard_mapLines s _ fun m x => ?_, rfl⟩
    split
    · exact x.bound_free_order _
    · exact ⟨rfl, rfl⟩
  | setLine =>
    refine .inl ⟨sameBoard_mapLines s _ fun m x => ?_, rfl⟩
    split
    · exact x.bound_free_configure _ _ _ _
    · exact ⟨rfl, rfl⟩
  | rest hd => exact .inr (.rest hd)
  | renew => exact .inl ⟨sameBoard_updLease s _ _ fun l => by simp, rfl⟩
  | claim n =>
    have h := sameBoard_mapLeases s (fun _ l => l.claimed s.clock.count (s.port l.holder).margin n)
      fun _ l => l.standing_claimed _ _ _
    exact .inl ⟨h.trans (stands (tableStands_mapInputs (s.claimAll n) _)), rfl⟩
  | endLease cause hl hlive => exact .inr (.leave _ _ (leaves_endLease s _ cause) nofun)
  | warn i => exact .inl ⟨sameBoard_updLease s i _ Lease.standing_warn, rfl⟩
  | setClock =>
    refine .inl ⟨stands ?_, rfl⟩
    unfold State.setClockTo
    split <;> exact ⟨fun _ => rfl, rfl, fun _ => rfl⟩
  | setPort q ceiling =>
    exact .inl ⟨(stands (tableStands_updPort s q _)).trans (sameBoard_warnOnMargin _ q _), rfl⟩
  | detach => exact changeAttach_cases s (by exact fun _ => ⟨rfl, rfl⟩) _
  | pen => exact changeAttach_cases s (by exact fun _ => ⟨rfl, rfl⟩) _
  | softReset => exact .inr .softReset
  | _ => exact .inl ⟨stands ⟨fun _ => rfl, rfl, fun _ => rfl⟩, rfl⟩

end Sys2Proof.Machine
end

section
/-! SUPPORT. Reads of the board, and the laws of the board that every step keeps: binding, the wait queue, the SELF
check and the quota (R17, R27, R34, R87). -/

namespace Sys2Proof.Machine

variable (s : State)

/-! ## Reads in the terms of the standing -/

section Reads

variable {s t : State} (h : ∀ i, (t.leaseAt i).map Lease.standing = (s.leaseAt i).map Lease.standing)

include h

/-- Two leases of one slot with one standing, or none. -/
theorem standing_cases (i : Fin 16) :
    t.leaseAt i = none ∧ s.leaseAt i = none
      ∨ ∃ b a, t.leaseAt i = some b ∧ s.leaseAt i = some a ∧ b.standing = a.standing := by
  have hi := h i
  cases ht : t.leaseAt i <;> cases hs : s.leaseAt i <;> simp_all

theorem linesAt_of_standing (i : Fin 16) : t.linesAt i = s.linesAt i := by
  obtain ⟨ht, hs⟩ | ⟨b, a, ht, hs, hba⟩ := standing_cases h i
  · simp only [State.linesAt, ht, hs]
  · simp only [State.linesAt, ht, hs]
    exact congrArg Standing.lines hba

theorem levelAt_of_standing (i : Fin 16) : t.levelAt i = s.levelAt i := by
  obtain ⟨ht, hs⟩ | ⟨b, a, ht, hs, hba⟩ := standing_cases h i
  · simp only [State.levelAt, ht, hs]
  · simp only [State.levelAt, ht, hs]
    exact congrArg (fun x : Standing => x.level.val) hba

theorem waitingAt_of_standing (i : Fin 16) : t.waitingAt i = s.waitingAt i := by
  obtain ⟨ht, hs⟩ | ⟨b, a, ht, hs, hba⟩ := standing_cases h i
  · simp only [State.waitingAt, ht, hs]
  · simp only [State.waitingAt, ht, hs]
    exact congrArg Standing.waiting hba

theorem yieldsTo_of_standing (i : Fin 16) (n : Nat) : t.yieldsTo i n = s.yieldsTo i n := by
  obtain ⟨ht, hs⟩ | ⟨b, a, ht, hs, hba⟩ := standing_cases h i
  · simp only [State.yieldsTo, ht, hs]
  · simp only [State.yieldsTo, ht, hs]
    exact congrArg (fun x : Standing => x.yieldable && decide (x.level.val < n)) hba

theorem holdsLine_of_standing (i l : Fin 16) : t.holdsLine i l = s.holdsLine i l := by
  obtain ⟨ht, hs⟩ | ⟨b, a, ht, hs, hba⟩ := standing_cases h i
  · simp only [State.holdsLine, ht, hs]
  · simp only [State.holdsLine, ht, hs]
    exact congrArg (fun x : Standing => x.holds && x.lines.getLsbD l.val) hba

theorem heldBy_of_standing (i : Fin 16) (p : Port) : (t.slot i).heldBy p = (s.slot i).heldBy p := by
  obtain ⟨ht, hs⟩ | ⟨b, a, ht, hs, hba⟩ := standing_cases h i
  · rw [State.leaseAt] at ht hs
    rw [Slot.heldBy, Slot.heldBy, ht, hs]
  · rw [State.leaseAt] at ht hs
    rw [Slot.heldBy, Slot.heldBy, ht, hs]
    exact congrArg (fun x : Standing => x.holder == p) hba

theorem slotUse_of_standing (p : Port) : t.slotUse p = s.slotUse p := by
  simp only [State.slotUse, heldBy_of_standing h]

theorem sameLivePort_of_standing (i j : Fin 16) : t.sameLivePort i j = s.sameLivePort i j := by
  obtain ⟨ht, hs⟩ | ⟨b, a, ht, hs, hba⟩ := standing_cases h i
  · simp only [State.sameLivePort, ht, hs]
  · obtain ⟨ht', hs'⟩ | ⟨b', a', ht', hs', hba'⟩ := standing_cases h j
    · simp only [State.sameLivePort, ht, hs, ht', hs']
    · simp only [State.sameLivePort, ht, hs, ht', hs', Lease.live_eq_standing, hba, hba']
      rw [show b.holder = a.holder from congrArg Standing.holder hba,
        show b'.holder = a'.holder from congrArg Standing.holder hba']

end Reads

namespace SameBoard

variable {s t : State} (h : SameBoard s t)

include h

theorem orderEligible (i : Fin 16) : t.orderEligible i = s.orderEligible i := by
  simp only [State.orderEligible, h.queue, linesAt_of_standing h.leases]

theorem allFree (lines : LineSet) : t.allFree lines = s.allFree lines := by
  simp only [State.allFree, h.free]

theorem calledOn (j : Fin 16) : t.calledOn j = s.calledOn j :=
  State.calledOn_congr h.queue h.bound (linesAt_of_standing h.leases) (waitingAt_of_standing h.leases)
    (levelAt_of_standing h.leases) (yieldsTo_of_standing h.leases) j

theorem bindingLaw (hs : BindingLaw s) : BindingLaw t := fun l i => by
  rw [h.bound, holdsLine_of_standing h.leases]
  exact hs l i

theorem queueLaw (hs : QueueLaw s) : QueueLaw t := by
  obtain ⟨hnodup, hmem, hsorted⟩ := hs
  rw [QueueLaw, h.queue]
  refine ⟨hnodup, fun i => ?_, hsorted.imp fun {i j} hij => ?_⟩
  · rw [waitingAt_of_standing h.leases]
    exact hmem i
  · rwa [levelAt_of_standing h.leases, levelAt_of_standing h.leases]

theorem selfLaw (hs : SelfLaw s) : SelfLaw t := fun i j hij hlive => by
  rw [linesAt_of_standing h.leases, linesAt_of_standing h.leases]
  exact hs i j hij (by rwa [sameLivePort_of_standing h.leases] at hlive)

end SameBoard

/-! ## What the moves make of the leases, the lines and the queue -/

theorem State.leaseAt_grantNow (i j : Fin 16) (l : Lease) :
    (s.grantNow i l).leaseAt j =
      if j = i then some (l.grant s.clock.count (s.port l.holder).margin {}) else s.leaseAt j := by
  rw [State.leaseAt, State.grantNow, State.slot_updSlot, State.bindLines, State.slot_mapLines]
  split
  · rfl
  · rw [← State.leaseAt]

theorem State.line_grantNow (i m : Fin 16) (l : Lease) :
    (s.grantNow i l).line m =
      if l.lines.getLsbD m.val then { s.line m with occ := .bound i (.static (s.line m).current) }
      else s.line m := by
  rw [State.grantNow, State.line_updSlot, State.line_bindLines]

theorem State.queue_grantNow (i : Fin 16) (l : Lease) : (s.grantNow i l).queue = s.queue := by
  rw [State.grantNow, State.queue_updSlot, State.bindLines, State.queue_mapLines]

theorem State.leaseAt_placeWaiting (i j : Fin 16) (l : Lease) :
    (s.placeWaiting i l).leaseAt j = if j = i then some l else s.leaseAt j := by
  simp only [State.placeWaiting, State.leaseAt, State.slot_updSlot]
  split <;> rfl

theorem State.line_placeWaiting (i m : Fin 16) (l : Lease) : (s.placeWaiting i l).line m = s.line m := by
  rw [State.placeWaiting, State.line_updSlot, State.line_setQueue]

theorem State.queue_placeWaiting (i : Fin 16) (l : Lease) :
    (s.placeWaiting i l).queue = enqueue s.levelAt i l.level.val s.queue := rfl

/-- R24: what the six checks of an ACQUIRE leave true when they pass. -/
theorem State.checkAcquire_ok {s : State} {p : Port} {a : AcquireArgs} {level : Fin 4} {i : Fin 16}
    (h : s.checkAcquire p a = .ok (level, i)) :
    a.outOfRange = false ∧ a.claimLevel = some level ∧ ¬(s.port p).ceiling < level ∧ s.openTo p a.lines = true
      ∧ s.selfConflict p a.lines = none ∧ s.slotUse p < (s.port p).quota ∧ s.lowestFree = some i := by
  unfold State.checkAcquire at h
  split at h
  · cases h
  rename_i hrange
  split at h
  · cases h
  rename_i level' hlevel
  split at h
  · cases h
  rename_i hceiling
  split at h
  · cases h
  rename_i hopen
  split at h
  · cases h
  rename_i hself
  split at h
  · cases h
  rename_i hquota
  split at h
  · cases h
  rename_i i' hfree
  cases h
  exact ⟨by simpa using hrange, hlevel, hceiling, by simpa using hopen, hself, by omega, hfree⟩

/-- R5: a placement takes a FREE slot. -/
theorem State.leaseAt_of_lowestFree {s : State} {i : Fin 16} (h : s.lowestFree = some i) : s.leaseAt i = none := by
  have := List.find?_some h
  simpa [State.leaseAt] using this

theorem State.leaseAt_of_checkAcquire {s : State} {p : Port} {a : AcquireArgs} {level : Fin 4} {i : Fin 16}
    (h : s.checkAcquire p a = .ok (level, i)) : s.leaseAt i = none := by
  obtain ⟨-, -, -, -, -, -, hfree⟩ := State.checkAcquire_ok h
  exact State.leaseAt_of_lowestFree hfree

theorem State.selfConflict_of_checkAcquire {s : State} {p : Port} {a : AcquireArgs} {level : Fin 4} {i : Fin 16}
    (h : s.checkAcquire p a = .ok (level, i)) : s.selfConflict p a.lines = none := by
  obtain ⟨-, -, -, -, hself, -, -⟩ := State.checkAcquire_ok h
  exact hself

theorem State.slotUse_lt_of_checkAcquire {s : State} {p : Port} {a : AcquireArgs} {level : Fin 4} {i : Fin 16}
    (h : s.checkAcquire p a = .ok (level, i)) : s.slotUse p < (s.port p).quota := by
  obtain ⟨-, -, -, -, -, huse, -⟩ := State.checkAcquire_ok h
  exact huse

theorem State.isFree_of_allFree {s : State} {lines : LineSet} (h : s.allFree lines = true) {m : Fin 16}
    (hm : lines.getLsbD m.val = true) : (s.line m).isFree = true := by
  have := List.all_eq_true.1 h m (mem_allLines m)
  rwa [hm] at this

theorem State.allFree_iff {s : State} {lines : LineSet} :
    s.allFree lines = true ↔ ∀ m : Fin 16, lines.getLsbD m.val = true → (s.line m).isFree = true := by
  refine ⟨fun h m => State.isFree_of_allFree h, fun h => List.all_eq_true.2 fun m _ => ?_⟩
  cases hm : lines.getLsbD m.val
  · rfl
  · rw [h m hm]
    rfl

theorem Line.boundSlot_of_isFree {x : Line} (h : x.isFree = true) : x.boundSlot = none := by
  cases hx : x.occ <;> simp [Line.isFree, Line.boundSlot, hx] at h ⊢

@[simp] theorem Line.boundSlot_toRest (x : Line) : x.toRest.boundSlot = none := rfl

@[simp] theorem Line.boundSlot_toFault (clock : Word) (x : Line) : (x.toFault clock).boundSlot = none := by
  unfold Line.toFault
  split <;> rfl

@[simp] theorem Lease.holding_finish (c : Cause) (l : Lease) : (l.finish c).holding = none := by
  cases hp : l.phase <;> simp [Lease.finish, Lease.holding, hp]

@[simp] theorem Lease.isWaiting_finish (c : Cause) (l : Lease) : (l.finish c).isWaiting = false := by
  cases hp : l.phase <;> simp [Lease.finish, Lease.isWaiting, hp]

@[simp] theorem Lease.isEnded_finish (c : Cause) (l : Lease) : (l.finish c).isEnded = true := by
  cases hp : l.phase <;> simp [Lease.finish, Lease.isEnded, hp]

@[simp] theorem Lease.holder_finish (c : Cause) (l : Lease) : (l.finish c).holder = l.holder := by
  cases hp : l.phase <;> simp [Lease.finish, hp]

@[simp] theorem Lease.lines_finish (c : Cause) (l : Lease) : (l.finish c).lines = l.lines := by
  cases hp : l.phase <;> simp [Lease.finish, hp]

@[simp] theorem Lease.level_finish (c : Cause) (l : Lease) : (l.finish c).level = l.level := by
  cases hp : l.phase <;> simp [Lease.finish, hp]

@[simp] theorem Lease.yieldable_finish (c : Cause) (l : Lease) : (l.finish c).yieldable = l.yieldable := by
  cases hp : l.phase <;> simp [Lease.finish, hp]

namespace Leaves

variable {s u : State} {gone : Fin 16 → Bool} {voluntary : Bool} (h : Leaves s u gone voluntary)

include h

theorem slot_of_kept {j : Fin 16} (hj : gone j = false) : u.slot j = s.slot j := by
  obtain ⟨hslot, -, -, -⟩ := h.vacated
  rw [hslot, if_neg (by simp [hj])]

theorem leaseAt_of_kept {j : Fin 16} (hj : gone j = false) : u.leaseAt j = s.leaseAt j :=
  congrArg Slot.lease (h.slot_of_kept hj)

theorem queue : u.queue = s.queue.filter fun i => !gone i := h.vacated.2.2.1

/-- A lease that left neither waits nor holds. -/
theorem of_gone {j : Fin 16} (hj : gone j = true) {l : Lease} (hl : u.leaseAt j = some l) :
    l.isEnded = true ∧ l.isWaiting = false ∧ l.holding = none := by
  obtain hnone | ⟨a, c, -, hfinish⟩ := h.leases j hj
  · rw [hnone] at hl
    cases hl
  · rw [hfinish] at hl
    cases hl
    simp

theorem boundSlot_iff (m j : Fin 16) :
    (u.line m).boundSlot = some j ↔ (s.line m).boundSlot = some j ∧ gone j = false := by
  obtain ⟨-, hline, -, -⟩ := h.vacated
  have hm := hline m
  cases hb : (s.line m).boundSlot with
  | none =>
    simp only [hb] at hm
    rw [hm, hb]
    simp
  | some k =>
    simp only [hb] at hm
    by_cases hk : gone k = true
    · have hnone : (u.line m).boundSlot = none := by
        rw [hm, if_pos hk]
        cases voluntary <;> simp
      rw [hnone]
      refine ⟨nofun, fun hj => ?_⟩
      obtain ⟨rfl, hj⟩ : k = j ∧ gone j = false := by simpa using hj
      simp [hk] at hj
    · rw [hm, if_neg hk, hb]
      refine ⟨fun hj => ⟨hj, ?_⟩, fun hj => hj.1⟩
      obtain rfl : k = j := by simpa using hj
      simpa using hk

end Leaves

end Sys2Proof.Machine
end

section
/-! SUPPORT. The laws of the board: binding (R87). -/

namespace Sys2Proof.Machine

variable (s : State)

/-! ## The binding of lines (R87) -/

/-- R87: leases that leave the board leave their lines. -/
theorem Leaves.bindingLaw {s u : State} {gone : Fin 16 → Bool} {voluntary : Bool} (h : Leaves s u gone voluntary)
    (hs : BindingLaw s) : BindingLaw u := fun m j => by
  rw [h.boundSlot_iff]
  cases hj : gone j
  · rw [State.holdsLine, h.leaseAt_of_kept hj, ← State.holdsLine, ← hs m j]
    simp
  · have hnot : u.holdsLine j m = false := by
      unfold State.holdsLine
      split
      · rename_i l hl
        obtain ⟨-, -, hholding⟩ := h.of_gone hj hl
        rw [hholding]
        rfl
      · rfl
    simp [hnot]

/-- R89: a lease that starts to hold in slot `i`, which held no line, binds the lines of its set. -/
theorem bindingLaw_bind {s u : State} {i : Fin 16} {l : Lease} (hs : BindingLaw s)
    (hidle : ∀ m, s.holdsLine i m = false) (hfree : s.allFree l.lines = true)
    (hlease : ∀ j, u.leaseAt j = if j = i then some l else s.leaseAt j) (hholds : l.holding.isSome = true)
    (hline : ∀ m, u.line m =
      if l.lines.getLsbD m.val then { s.line m with occ := .bound i (.static (s.line m).current) } else s.line m) :
    BindingLaw u := fun m j => by
  have hbefore : (s.line m).boundSlot ≠ some i := by
    rw [Ne, hs m i, hidle m]
    exact Bool.false_ne_true
  have hholdsLine : u.holdsLine j m = if j = i then l.lines.getLsbD m.val else s.holdsLine j m := by
    by_cases hj : j = i <;> simp [State.holdsLine, hlease, hj, hholds]
  rw [hline, hholdsLine]
  by_cases hm : l.lines.getLsbD m.val = true
  · have hunbound : (s.line m).boundSlot = none := Line.boundSlot_of_isFree (State.isFree_of_allFree hfree hm)
    have hother : s.holdsLine j m = false := by
      rw [← Bool.not_eq_true, ← hs m j, hunbound]
      nofun
    rw [if_pos hm, hm, hother]
    change some i = some j ↔ _
    rw [Option.some_inj]
    by_cases hj : j = i
    · simp [hj]
    · simpa [hj] using fun h : i = j => hj h.symm
  · rw [if_neg hm]
    by_cases hj : j = i
    · simp only [hj, if_true]
      exact ⟨fun h => absurd h hbefore, fun h => absurd h hm⟩
    · simpa [hj] using hs m j

theorem Lease.holding_grant (clock : Word) (margin : Ticks) (n : Notices) (l : Lease) :
    (l.grant clock margin n).holding.isSome = true := rfl

/-- R87: a slot whose lease does not hold has no line. -/
theorem State.holdsLine_of_waiting {s : State} {i : Fin 16} {l : Lease} (hl : s.leaseAt i = some l)
    (hw : l.isWaiting = true) (m : Fin 16) : s.holdsLine i m = false := by
  cases hp : l.phase <;> simp_all [State.holdsLine, Lease.isWaiting, Lease.holding]

theorem State.holdsLine_of_free {s : State} {i : Fin 16} (hl : s.leaseAt i = none) (m : Fin 16) :
    s.holdsLine i m = false := by
  rw [State.holdsLine, hl]

theorem State.leaseAt_mapLines (f : Fin 16 → Line → Line) (i : Fin 16) : (s.mapLines f).leaseAt i = s.leaseAt i := by
  rw [State.leaseAt, State.slot_mapLines, ← State.leaseAt]

theorem State.holdsLine_mapLines (f : Fin 16 → Line → Line) (j m : Fin 16) :
    (s.mapLines f).holdsLine j m = s.holdsLine j m := by
  simp only [State.holdsLine, State.leaseAt, State.slot_mapLines]

theorem bindingLaw_grantWaiter {i : Fin 16} {l : Lease} (hl : s.leaseAt i = some l) (hw : l.isWaiting = true)
    (hf : s.allFree l.lines = true) (hs : BindingLaw s) : BindingLaw (s.grantWaiter i l) := by
  refine bindingLaw_bind (l := l.grant s.clock.count (s.port l.holder).margin Notices.grantedOnly) hs
    (State.holdsLine_of_waiting hl hw) hf (fun j => ?_) (Lease.holding_grant _ _ _ _) fun m => s.line_grantWaiter i m l
  rw [State.leaseAt_grantWaiter]
  split
  next hj => rw [hj, hl]; rfl
  next => rfl

/-- R87: the scan and the evaluation keep the binding of lines. -/
theorem bindingLaw_settle {s : State} (scan : Bool) (h : BindingLaw s) : BindingLaw (s.settle scan).1 :=
  State.settle_induct (P := fun s => BindingLaw s)
    (fun s _ _ hl hw _ hf => bindingLaw_grantWaiter s hl hw hf)
    (fun s => (sameBoard_startYields s).bindingLaw)
    (fun s j => (leaves_endLease s j .preempted).bindingLaw)
    (fun s => (sameBoard_withdrawYields s).bindingLaw) h scan

/-- R87: so does every move of the board. -/
theorem bindingLaw_moves {s u : State} {asker : Option Port} {scan : Bool} (h : Moves s asker u scan)
    (hs : BindingLaw s) : BindingLaw u := by
  cases h with
  | @grantNow p a level i hp hc ho hf =>
    exact bindingLaw_bind (l := (s.newLease p a level).grant s.clock.count (s.port p).margin {}) hs
      (State.holdsLine_of_free (State.leaseAt_of_checkAcquire hc)) hf (fun j => s.leaseAt_grantNow i j _)
      (Lease.holding_grant _ _ _ _) fun m => s.line_grantNow i m _
  | @placeWaiting p a level i hp hc =>
    intro m j
    have hholds : (s.placeWaiting i (s.newLease p a level)).holdsLine j m = s.holdsLine j m := by
      rw [State.holdsLine, State.leaseAt_placeWaiting]
      by_cases hj : j = i
      · rw [if_pos hj, hj, State.holdsLine_of_free (State.leaseAt_of_checkAcquire hc)]
        rfl
      · rw [if_neg hj]
        rfl
    rw [hholds, State.line_placeWaiting]
    exact hs m j
  | rest hd =>
    intro m j
    rw [State.line_mapLines, State.holdsLine_mapLines]
    split
    next hm =>
      have hbefore : (s.line m).boundSlot = none := by
        unfold State.quarantineDue at hd
        split at hd
        · rename_i hocc
          rw [hm, Line.boundSlot, hocc]
        · cases hd
        · cases hd
      rw [Line.boundSlot_toRest, ← hbefore]
      exact hs m j
    next => exact hs m j
  | leave gone voluntary h => exact h.bindingLaw hs
  | softReset =>
    intro m j
    have hfree : (s.softResetChanges.line m).boundSlot = none := by
      rw [State.line_softResetChanges]
      split
      · exact Line.boundSlot_of_isFree ‹_›
      · rfl
    rw [hfree, State.holdsLine_of_free (s.tableFree_softResetChanges j)]
    simp

/-- R87: and so does every event, with its scan and its evaluation. -/
theorem bindingLaw_change {s u : State} {asker : Option Port} {scan : Bool} (h : Change s asker u scan)
    (hs : BindingLaw s) : BindingLaw u := by
  obtain ⟨hboard, -⟩ | hmoves := change_cases s h
  · exact hboard.bindingLaw hs
  · exact bindingLaw_moves hmoves hs

/-! ## The wait queue (R34 to R36) -/

/-- R34: the wait queue is a matter of the queue and of where the leases stand. -/
theorem queueLaw_of_standing {s t : State}
    (hleases : ∀ i, (t.leaseAt i).map Lease.standing = (s.leaseAt i).map Lease.standing) (hqueue : t.queue = s.queue)
    (hs : QueueLaw s) : QueueLaw t := by
  obtain ⟨hnodup, hmem, hsorted⟩ := hs
  rw [QueueLaw, hqueue]
  refine ⟨hnodup, fun i => ?_, hsorted.imp fun {i j} hij => ?_⟩
  · rw [waitingAt_of_standing hleases]
    exact hmem i
  · rwa [levelAt_of_standing hleases, levelAt_of_standing hleases]

/-- R36: leases that wait no more leave the queue, and the others keep their order. -/
theorem queueLaw_filter {s u : State} {gone : Fin 16 → Bool} (hqueue : u.queue = s.queue.filter fun i => !gone i)
    (hkept : ∀ j, gone j = false → u.leaseAt j = s.leaseAt j) (hout : ∀ j, gone j = true → u.waitingAt j = false)
    (hs : QueueLaw s) : QueueLaw u := by
  obtain ⟨hnodup, hmem, hsorted⟩ := hs
  have hlevel : ∀ j, gone j = false → u.levelAt j = s.levelAt j := fun j hj => by
    rw [State.levelAt, hkept j hj, ← State.levelAt]
  rw [QueueLaw, hqueue]
  refine ⟨hnodup.filter _, fun j => ?_, ?_⟩
  · rw [List.mem_filter, hmem]
    cases hj : gone j
    · have hwaiting : u.waitingAt j = s.waitingAt j := by rw [State.waitingAt, hkept j hj, ← State.waitingAt]
      simp [hwaiting]
    · simp [hout j hj]
  · refine (hsorted.filter _).imp_of_mem fun {i j} hi hj hij => ?_
    rw [hlevel i (by simpa using (List.mem_filter.1 hi).2), hlevel j (by simpa using (List.mem_filter.1 hj).2)]
    exact hij

/-- R35: a lease queues behind the last of its own or a higher level, and ahead of all of a lower one. -/
theorem enqueue_split (levelOf : Fin 16 → Nat) (i : Fin 16) (level : Nat) {q : List (Fin 16)}
    (hsorted : q.Pairwise fun i j => levelOf j ≤ levelOf i) :
    ∃ ahead behind, q = ahead ++ behind ∧ enqueue levelOf i level q = ahead ++ i :: behind
      ∧ (∀ j ∈ ahead, level ≤ levelOf j) ∧ ∀ j ∈ behind, levelOf j < level := by
  induction q with
  | nil => exact ⟨[], [], rfl, rfl, by simp, by simp⟩
  | cons j q ih =>
    obtain ⟨hhead, htail⟩ := List.pairwise_cons.1 hsorted
    by_cases hj : level ≤ levelOf j
    · obtain ⟨ahead, behind, rfl, henqueue, hahead, hbehind⟩ := ih htail
      refine ⟨j :: ahead, behind, rfl, ?_, ?_, hbehind⟩
      · rw [enqueue, if_pos hj, henqueue]
        rfl
      · intro k hk
        obtain rfl | hk := List.mem_cons.1 hk
        · exact hj
        · exact hahead k hk
    · refine ⟨[], j :: q, rfl, ?_, by simp, ?_⟩
      · rw [enqueue, if_neg hj]
        rfl
      · intro k hk
        obtain rfl | hk := List.mem_cons.1 hk
        · omega
        · have := hhead k hk
          omega

/-- R32, R35: a waiter placed in a FREE slot at its level keeps the queue. -/
theorem queueLaw_placeWaiting {s : State} {i : Fin 16} {l : Lease} (hfree : s.leaseAt i = none)
    (hw : l.isWaiting = true) (hs : QueueLaw s) : QueueLaw (s.placeWaiting i l) := by
  obtain ⟨hnodup, hmem, hsorted⟩ := hs
  have hnot : s.waitingAt i = false := by rw [State.waitingAt, hfree]
  have hi : i ∉ s.queue := by
    rw [hmem, hnot]
    exact Bool.false_ne_true
  have hlevel : ∀ j, (s.placeWaiting i l).levelAt j = if j = i then l.level.val else s.levelAt j := fun j => by
    rw [State.levelAt, State.leaseAt_placeWaiting]
    by_cases hj : j = i
    · rw [if_pos hj, if_pos hj]
    · rw [if_neg hj, if_neg hj, State.levelAt]
  have hwaiting : ∀ j, (s.placeWaiting i l).waitingAt j = if j = i then true else s.waitingAt j := fun j => by
    rw [State.waitingAt, State.leaseAt_placeWaiting]
    by_cases hj : j = i
    · rw [if_pos hj, if_pos hj]
      exact hw
    · rw [if_neg hj, if_neg hj, State.waitingAt]
  obtain ⟨ahead, behind, hq, henqueue, hahead, hbehind⟩ := enqueue_split s.levelAt i l.level.val hsorted
  rw [QueueLaw, State.queue_placeWaiting, henqueue]
  rw [hq] at hnodup hsorted hi
  have hne : ∀ j ∈ ahead ++ behind, j ≠ i := fun j hj h => hi (h ▸ hj)
  refine ⟨?_, fun j => ?_, ?_⟩
  · rw [List.nodup_middle, List.nodup_cons]
    exact ⟨hi, hnodup⟩
  · have hmemj := hmem j
    rw [hq, List.mem_append] at hmemj
    rw [hwaiting, List.mem_append, List.mem_cons]
    by_cases hj : j = i
    · simp [hj]
    · simp [hj, ← hmemj]
  · have hlevelNe : ∀ j ∈ ahead ++ behind, (s.placeWaiting i l).levelAt j = s.levelAt j := fun j hj => by
      rw [hlevel, if_neg (hne j hj)]
    have hlevelAt : (s.placeWaiting i l).levelAt i = l.level.val := by rw [hlevel, if_pos rfl]
    obtain ⟨hpa, hpb, hab⟩ := List.pairwise_append.1 hsorted
    refine List.pairwise_append.2 ⟨?_, List.pairwise_cons.2 ⟨fun j hj => ?_, ?_⟩, fun j hj k hk => ?_⟩
    · refine hpa.imp_of_mem fun {j k} hj hk hjk => ?_
      rwa [hlevelNe j (List.mem_append_left _ hj), hlevelNe k (List.mem_append_left _ hk)]
    · rw [hlevelNe j (List.mem_append_right _ hj), hlevelAt]
      exact (hbehind j hj).le
    · refine hpb.imp_of_mem fun {j k} hj hk hjk => ?_
      rwa [hlevelNe j (List.mem_append_right _ hj), hlevelNe k (List.mem_append_right _ hk)]
    · rw [hlevelNe j (List.mem_append_left _ hj)]
      obtain rfl | hk := List.mem_cons.1 hk
      · rw [hlevelAt]
        exact hahead j hj
      · rw [hlevelNe k (List.mem_append_right _ hk)]
        exact hab j hj k hk

theorem Leaves.queueLaw {s u : State} {gone : Fin 16 → Bool} {voluntary : Bool} (h : Leaves s u gone voluntary)
    (hs : QueueLaw s) : QueueLaw u := by
  refine queueLaw_filter h.queue (fun j => h.leaseAt_of_kept) (fun j hj => ?_) hs
  unfold State.waitingAt
  split
  · rename_i l hl
    exact (h.of_gone hj hl).2.1
  · rfl

theorem queueLaw_grantWaiter (i : Fin 16) (l : Lease) (hs : QueueLaw s) : QueueLaw (s.grantWaiter i l) := by
  refine queueLaw_filter (gone := fun j => j == i) ?_ (fun j hj => ?_) (fun j hj => ?_) hs
  · rw [State.queue_grantWaiter]
    exact List.filter_congr fun j _ => by rw [Bool.eq_iff_iff]; simp
  · rw [State.leaseAt_grantWaiter, if_neg (by simpa using hj)]
  · rw [State.waitingAt, State.leaseAt_grantWaiter, if_pos (by simpa using hj)]
    cases s.leaseAt j <;> rfl

theorem queueLaw_settle {s : State} (scan : Bool) (h : QueueLaw s) : QueueLaw (s.settle scan).1 :=
  State.settle_induct (P := fun s => QueueLaw s) (fun s i l _ _ _ _ => queueLaw_grantWaiter s i l)
    (fun s => (sameBoard_startYields s).queueLaw) (fun s j => (leaves_endLease s j .preempted).queueLaw)
    (fun s => (sameBoard_withdrawYields s).queueLaw) h scan

theorem queueLaw_moves {s u : State} {asker : Option Port} {scan : Bool} (h : Moves s asker u scan)
    (hs : QueueLaw s) : QueueLaw u := by
  cases h with
  | @grantNow p a level i hp hc ho hf =>
    have hfree := State.leaseAt_of_checkAcquire hc
    have hi : i ∉ s.queue := by
      rw [hs.2.1, State.waitingAt, hfree]
      exact Bool.false_ne_true
    refine queueLaw_filter (gone := fun j => j == i) ?_ (fun j hj => ?_) (fun j hj => ?_) hs
    · rw [State.queue_grantNow, List.filter_eq_self.2]
      intro j hj
      simpa using fun h : j = i => hi (h ▸ hj)
    · rw [State.leaseAt_grantNow, if_neg (by simpa using hj)]
    · rw [State.waitingAt, State.leaseAt_grantNow, if_pos (by simpa using hj)]
      rfl
  | placeWaiting hp hc => exact queueLaw_placeWaiting (State.leaseAt_of_checkAcquire hc) rfl hs
  | rest hd => exact queueLaw_of_standing (fun i => by rw [State.leaseAt_mapLines]) (s.queue_mapLines _) hs
  | leave gone voluntary h => exact h.queueLaw hs
  | softReset =>
    rw [QueueLaw, State.queue_softResetChanges]
    refine ⟨.nil, fun j => ?_, .nil⟩
    rw [State.waitingAt, s.tableFree_softResetChanges j]
    simp

theorem queueLaw_change {s u : State} {asker : Option Port} {scan : Bool} (h : Change s asker u scan)
    (hs : QueueLaw s) : QueueLaw u := by
  obtain ⟨hboard, -⟩ | hmoves := change_cases s h
  · exact hboard.queueLaw hs
  · exact queueLaw_moves hmoves hs

end Sys2Proof.Machine
end

section
/-! SUPPORT. What events make of single leases, the rule that a law of the table and the settings is kept, and the
laws of chapters 1, 2 and 5 that every step keeps (R16, R17, R27, R34, R87, R88). -/

namespace Sys2Proof.Machine

variable (s : State)

/-! ## The terms of a lease, that no scan and no evaluation changes (R11) -/

/-- A lease less its state and its notices. -/
def Lease.bare (l : Lease) : Lease := { l with phase := .waiting none, flags := {} }

@[simp] theorem Lease.bare_startYield (d : Word) (l : Lease) : (l.startYield d).bare = l.bare := by
  cases hp : l.phase <;> simp [Lease.bare, Lease.startYield, hp]

@[simp] theorem Lease.bare_withdraw (l : Lease) : l.withdraw.bare = l.bare := by
  cases hp : l.phase <;> simp [Lease.bare, Lease.withdraw, hp]

@[simp] theorem Lease.bare_finish (c : Cause) (l : Lease) : (l.finish c).bare = l.bare := by
  cases hp : l.phase <;> simp [Lease.bare, Lease.finish, hp]

@[simp] theorem Lease.bare_grant (clock : Word) (margin : Ticks) (n : Notices) (l : Lease) :
    (l.grant clock margin n).bare = l.bare := rfl

/-- Every lease keeps its terms. -/
def SameTerms (s t : State) : Prop := ∀ i, (t.leaseAt i).map Lease.bare = (s.leaseAt i).map Lease.bare

theorem SameTerms.trans {s t u : State} (h : SameTerms s t) (h' : SameTerms t u) : SameTerms s u :=
  fun i => (h' i).trans (h i)

theorem sameTerms_of_map {s t : State} {f : Fin 16 → Lease → Lease} (ht : ∀ i, t.leaseAt i = (s.leaseAt i).map (f i))
    (hf : ∀ i l, (f i l).bare = l.bare) : SameTerms s t := fun i => by
  rw [ht, Option.map_map]
  exact Option.map_congr fun l _ => hf i l

theorem sameTerms_startYields : SameTerms s s.startYields :=
  sameTerms_of_map s.leaseAt_startYields fun _ l => by split <;> simp

theorem sameTerms_withdrawYields : SameTerms s s.withdrawYields :=
  sameTerms_of_map s.leaseAt_withdrawYields fun _ l => by split <;> simp

theorem sameTerms_endLease (i : Fin 16) (c : Cause) : SameTerms s (s.endLease i c) :=
  sameTerms_of_map (f := fun j l => if j = i then l.finish c else l)
    (fun j => by rw [State.leaseAt_endLease]; by_cases hj : j = i <;> simp [hj])
    fun _ l => by split <;> simp

theorem sameTerms_grantWaiter (i : Fin 16) (l : Lease) : SameTerms s (s.grantWaiter i l) :=
  sameTerms_of_map
    (f := fun j x => if j = i then x.grant s.clock.count (s.port l.holder).margin Notices.grantedOnly else x)
    (fun j => by rw [State.leaseAt_grantWaiter]; by_cases hj : j = i <;> simp [hj])
    fun _ l => by split <;> simp

theorem sameTerms_settle (scan : Bool) : SameTerms s (s.settle scan).1 :=
  State.settle_induct (P := fun t => SameTerms s t) (fun t i l _ _ _ _ h => h.trans (sameTerms_grantWaiter t i l))
    (fun t h => h.trans (sameTerms_startYields t)) (fun t j h => h.trans (sameTerms_endLease t j _))
    (fun t h => h.trans (sameTerms_withdrawYields t)) (fun _ => rfl) scan

namespace SameTerms

variable {s t : State} (h : SameTerms s t)

include h

theorem cases (i : Fin 16) :
    t.leaseAt i = none ∧ s.leaseAt i = none
      ∨ ∃ b a, t.leaseAt i = some b ∧ s.leaseAt i = some a ∧ b.bare = a.bare := by
  have hi := h i
  cases ht : t.leaseAt i <;> cases hs : s.leaseAt i <;> simp_all

theorem linesAt (i : Fin 16) : t.linesAt i = s.linesAt i := by
  obtain ⟨ht, hs⟩ | ⟨b, a, ht, hs, hba⟩ := h.cases i
  · simp only [State.linesAt, ht, hs]
  · simp only [State.linesAt, ht, hs]
    exact (congrArg Lease.lines hba :)

theorem levelAt (i : Fin 16) : t.levelAt i = s.levelAt i := by
  obtain ⟨ht, hs⟩ | ⟨b, a, ht, hs, hba⟩ := h.cases i
  · simp only [State.levelAt, ht, hs]
  · simp only [State.levelAt, ht, hs]
    exact (congrArg (fun l : Lease => l.level.val) hba :)

theorem yieldsTo (i : Fin 16) (n : Nat) : t.yieldsTo i n = s.yieldsTo i n := by
  obtain ⟨ht, hs⟩ | ⟨b, a, ht, hs, hba⟩ := h.cases i
  · simp only [State.yieldsTo, ht, hs]
  · simp only [State.yieldsTo, ht, hs]
    exact (congrArg (fun l : Lease => l.yieldable && decide (l.level.val < n)) hba :)

theorem heldBy (i : Fin 16) (p : Port) : (t.slot i).heldBy p = (s.slot i).heldBy p := by
  obtain ⟨ht, hs⟩ | ⟨b, a, ht, hs, hba⟩ := h.cases i
  · rw [State.leaseAt] at ht hs
    rw [Slot.heldBy, Slot.heldBy, ht, hs]
  · rw [State.leaseAt] at ht hs
    rw [Slot.heldBy, Slot.heldBy, ht, hs]
    exact (congrArg (fun l : Lease => l.holder == p) hba :)

theorem slotUse (p : Port) : t.slotUse p = s.slotUse p := by
  simp only [State.slotUse, h.heldBy]

end SameTerms

/-- R170: a detach frees the slots that the port holds. -/
theorem State.slot_detachPort (q : Port) (j : Fin 16) :
    (s.detachPort q).slot j = if (s.slot j).heldBy q then (s.slot j).toFree else s.slot j := by
  rw [State.detachPort, State.slot_updPort, State.dropLeases, State.slot_mapSlots, State.slot_setQueue,
    State.slot_mapLines]

/-! ## What the events make of a lease -/

/-- What the events make of a lease at the clock value `clock` keeps `Q`, with yield deadlines in `D`. -/
structure KeptByEvents (clock : Word) (D : Word → Prop) (Q : Lease → Prop) : Prop where
  new : ∀ {t : State} {p : Port} {a : AcquireArgs} {level : Fin 4}, t.clock.count = clock → a.outOfRange = false →
    Q (t.newLease p a level)
  grant : ∀ {l : Lease} {margin : Ticks} {n : Notices}, n = {} ∨ n = Notices.grantedOnly → Q l →
    Q (l.grant clock margin n)
  renew : ∀ {l : Lease} {g : Holding} {newTerm margin : Ticks}, l.phase = .active g → l.belowCap g.count = true →
    newTermInRange newTerm = true → Q l → Q ({ l with term := termAfter l newTerm }.renew clock margin)
  clear : ∀ {l : Lease} {kinds : Notices}, Q l → Q { l with flags := l.flags.minus kinds }
  warn : ∀ {l : Lease}, Q l → Q l.warn
  finish : ∀ {l : Lease} {c : Cause}, Q l → Q (l.finish c)
  start : ∀ {l : Lease} {d : Word}, D d → Q l → Q (l.startYield d)
  withdraw : ∀ {l : Lease}, Q l → Q l.withdraw

/-- Every lease of the table has `Q`. -/
def Leases (Q : Lease → Prop) (s : State) : Prop := ∀ i l, s.leaseAt i = some l → Q l

section Leases

variable {clock : Word} {D : Word → Prop} {Q : Lease → Prop}

theorem leases_of_map {s t : State} {f : Fin 16 → Lease → Lease} (ht : ∀ i, t.leaseAt i = (s.leaseAt i).map (f i))
    (hf : ∀ i l, s.leaseAt i = some l → Q l → Q (f i l)) (hs : Leases Q s) : Leases Q t := fun i b hb => by
  rw [ht] at hb
  obtain ⟨a, ha, rfl⟩ := Option.map_eq_some_iff.1 hb
  exact hf i a ha (hs i a ha)

theorem leases_of_slots {s t : State} (ht : ∀ i, t.slot i = s.slot i) (hs : Leases Q s) : Leases Q t :=
  fun i l hl => hs i l (by rwa [State.leaseAt, ht] at hl)

theorem leases_updLease {s : State} {i : Fin 16} {f : Lease → Lease} (hf : ∀ l, s.leaseAt i = some l → Q l → Q (f l))
    (hs : Leases Q s) : Leases Q (s.updLease i f) := by
  refine leases_of_map (f := fun j l => if j = i then f l else l) (fun j => ?_) (fun j l hl hq => ?_) hs
  · rw [State.leaseAt_updLease]
    by_cases hj : j = i <;> simp [hj]
  · split
    · rename_i hj
      exact hf l (hj ▸ hl) hq
    · exact hq

variable (hQ : KeptByEvents clock D Q)

include hQ

theorem leases_endLease {s : State} {i : Fin 16} {c : Cause} (hs : Leases Q s) : Leases Q (s.endLease i c) := by
  refine leases_of_map (f := fun j l => if j = i then l.finish c else l) (fun j => ?_) (fun j l _ hl => ?_) hs
  · rw [State.leaseAt_endLease]
    by_cases hj : j = i <;> simp [hj]
  · split
    · exact hQ.finish hl
    · exact hl

theorem leases_settle {u : State} (scan : Bool) (hclock : u.clock.count = clock)
    (hwindow : ∀ p, D (u.ahead (u.port p).window)) (hu : Leases Q u) : Leases Q (u.settle scan).1 := by
  refine (State.settle_induct (P := fun t => OnlyTable u t ∧ Leases Q t) ?grant ?start ?preempt ?withdraw
    ⟨.refl u, hu⟩ scan).2
  case grant =>
    rintro t i l hl hw ho hf ⟨hut, ht⟩
    refine ⟨hut.trans (onlyTable_grantWaiter t i l), leases_of_map (fun j => ?_)
      (f := fun j x => if j = i then x.grant t.clock.count (t.port l.holder).margin Notices.grantedOnly else x)
      (fun j x _ hx => ?_) ht⟩
    · rw [State.leaseAt_grantWaiter]
      by_cases hj : j = i <;> simp [hj]
    · split
      · rw [hut.clock, hclock]
        exact hQ.grant (.inr rfl) hx
      · exact hx
  case start =>
    rintro t ⟨hut, ht⟩
    refine ⟨hut.trans (onlyTable_startYields t), leases_of_map t.leaseAt_startYields (fun j x _ hx => ?_) ht⟩
    split
    · refine hQ.start ?_ hx
      rw [State.ahead, hut.clock, hut.port]
      exact hwindow _
    · exact hx
  case preempt =>
    rintro t j ⟨hut, ht⟩
    exact ⟨hut.trans (onlyTable_endLease t j _), leases_endLease hQ ht⟩
  case withdraw =>
    rintro t ⟨hut, ht⟩
    refine ⟨hut.trans (onlyTable_withdrawYields t), leases_of_map t.leaseAt_withdrawYields (fun j x _ hx => ?_) ht⟩
    split
    · exact hx
    · exact hQ.withdraw hx

omit hQ in
/-- R170: a change of attachment leaves the leases that it does not free. -/
theorem leases_changeAttach {s : State} {q : Port} {f : PortState → PortState} (hs : Leases Q s) :
    Leases Q (s.changeAttach q f).1 := by
  unfold State.changeAttach
  simp only
  split
  · intro j b hb
    rw [State.leaseAt, State.slot_detachPort, State.slot_updPort] at hb
    split at hb
    · rw [Slot.toFree_eq] at hb
      cases hb
    · exact hs j b hb
  · exact leases_of_slots (s := s) (fun _ => rfl) hs

theorem leases_warnOnMargin {s : State} {q : Port} {margin : Setting Ticks} (hs : Leases Q s) :
    Leases Q (s.warnOnMargin q margin) := by
  unfold State.warnOnMargin
  split
  · refine leases_of_map (s := s) (f := fun _ l => if l.holder = q ∧ s.warningCondition l then l.warn else l)
      (fun j => ?_) (fun j l _ hl => ?_) hs
    · simp only [State.warnPort, State.leaseAt, State.slot_mapSlots]
    · split
      · exact hQ.warn hl
      · exact hl
  all_goals exact hs

theorem leases_change {s u : State} {asker : Option Port} {scan : Bool} (h : Change s asker u scan)
    (hclock : s.clock.count = clock) (hs : Leases Q s) : Leases Q u := by
  cases h with
  | grantNow hp hc =>
    intro j b hb
    rw [State.leaseAt_grantNow] at hb
    split at hb
    · cases hb
      rw [hclock]
      exact hQ.grant (.inl rfl) (hQ.new hclock (State.checkAcquire_ok hc).1)
    · exact hs j b hb
  | placeWaiting hp hc =>
    intro j b hb
    rw [State.leaseAt_placeWaiting] at hb
    split at hb
    · cases hb
      exact hQ.new hclock (State.checkAcquire_ok hc).1
    · exact hs j b hb
  | freeLive | freeEnded =>
    intro j b hb
    rw [State.leaseAt, State.slot_freeSlot] at hb
    split at hb
    · rw [Slot.toFree_eq] at hb
      cases hb
    · exact hs j b hb
  | clearFlags i kinds => exact leases_updLease (fun l _ hl => hQ.clear hl) hs
  | renew hl hphase hcap hterm =>
    refine leases_updLease (fun l hl' hq => ?_) hs
    cases hl.symm.trans hl'
    rw [hclock]
    exact hQ.renew hphase hcap hterm hq
  | claim n =>
    refine leases_of_map (s := s) (f := fun _ l => l.claimed s.clock.count (s.port l.holder).margin n) (fun j => ?_)
      (fun j l _ hl => ?_) hs
    · simp [State.claimTaken, State.claimAll, State.leaseAt]
    · unfold Lease.claimed
      split
      · split
        · rename_i g hphase hnamed
          simp only [Bool.and_eq_true, decide_eq_true_eq] at hnamed
          have := hQ.renew (newTerm := 0) (margin := (s.port l.holder).margin) hphase hnamed.2 (by decide) hl
          rw [hclock]
          exact this
        · exact hl
      all_goals exact hl
  | endLease cause hl hlive => exact leases_endLease hQ hs
  | warn i => exact leases_updLease (fun l _ hl => hQ.warn hl) hs
  | setClock =>
    unfold State.setClockTo
    split <;> exact leases_of_slots (s := s) (fun _ => rfl) hs
  | setPort q => exact leases_warnOnMargin hQ (leases_of_slots (s := s) (fun _ => rfl) hs)
  | detach | pen => exact leases_changeAttach hs
  | softReset =>
    intro j b hb
    rw [s.tableFree_softResetChanges j] at hb
    cases hb
  | stands => exact hs
  | clearClock | setMask | attach => exact leases_of_slots (s.slot_updPort _ _) hs
  | order | setLine | rest => exact leases_of_slots (s.slot_mapLines _) hs
  | setHeartbeat => exact leases_of_slots (s.slot_mapInputs _) hs
  | resume => exact leases_of_slots (State.slot_mapPorts _ _) (leases_of_slots (s.slot_updClock _) hs)

end Leases

end Sys2Proof.Machine
end

section
/-! SUPPORT. The rule that a law of the table, the settings and the clock value is kept, and the proofs of the laws of
chapters 1, 2 and 5 (R16, R17, R27, R34, R87, R88). -/

namespace Sys2Proof.Machine

variable (s : State)

/-! ## Laws of the table, the settings and the clock value -/

/-- The table, the queue and the lines stand, and so do every port's quota, margin and window and the clock value. -/
structure Alike (s t : State) : Prop where
  table : TableStands s t
  settings : ∀ p, (t.port p).quota = (s.port p).quota ∧ (t.port p).margin = (s.port p).margin
    ∧ (t.port p).window = (s.port p).window
  count : t.clock.count = s.clock.count

theorem Alike.trans {s t u : State} (h : Alike s t) (h' : Alike t u) : Alike s u := by
  obtain ⟨hslot, hqueue, hline⟩ := h.table
  obtain ⟨hslot', hqueue', hline'⟩ := h'.table
  exact ⟨⟨fun i => (hslot' i).trans (hslot i), hqueue'.trans hqueue, fun m => (hline' m).trans (hline m)⟩,
    fun p => ⟨(h'.settings p).1.trans (h.settings p).1, (h'.settings p).2.1.trans (h.settings p).2.1,
      (h'.settings p).2.2.trans (h.settings p).2.2⟩, h'.count.trans h.count⟩

theorem alike_attend (t : State) (acked : Option Port) : Alike t (s.attend acked t) :=
  ⟨tableStands_attend s t acked, fun p => by rw [State.port_attend]; exact ⟨rfl, rfl, rfl⟩, rfl⟩

theorem alike_respond (p : Port) (c : Command) (a : Answer) : Alike s (s.respond p c a) :=
  ⟨⟨fun _ => rfl, rfl, fun _ => rfl⟩, fun q => by rw [State.port_respond]; split <;> exact ⟨rfl, rfl, rfl⟩, rfl⟩

theorem alike_updPort {x : Port} {f : PortState → PortState}
    (hf : ∀ q, (f q).quota = q.quota ∧ (f q).margin = q.margin ∧ (f q).window = q.window) : Alike s (s.updPort x f) :=
  ⟨tableStands_updPort s x f, fun p => by rw [State.port_updPort]; split <;> [exact hf _; exact ⟨rfl, rfl, rfl⟩], rfl⟩

theorem alike_postClock : Alike s s.postClock :=
  ⟨⟨fun _ => rfl, rfl, fun _ => rfl⟩,
    fun p => by rw [State.postClock, State.port_mapPorts]; split <;> exact ⟨rfl, rfl, rfl⟩, rfl⟩

/-- R120: no move of the supervision reaches the lease clock. -/
theorem ClockMove.count_eq {c d : Clock} {posts : Bool} (h : ClockMove c d posts) : d.count = c.count := by
  cases h <;> first | rfl | exact Clock.count_lost c

theorem alike_setClockBlock {d : Clock} (hd : d.count = s.clock.count) : Alike s (s.setClockBlock d) :=
  ⟨⟨fun _ => rfl, rfl, fun _ => rfl⟩, fun _ => ⟨rfl, rfl, rfl⟩, hd⟩

/-- The commands that take no lease event leave all this, but for a tick. -/
theorem quiet_alike {t : State} (h : Quiet s t) :
    Alike s t ∨ ∃ (u : State) (hb : BitVec 4), Alike s u ∧ u.tickReady = true ∧ t = u.tickTaken hb := by
  cases h with
  | tick hb hr => exact .inr ⟨s, hb, alike_setClockBlock s rfl, hr, rfl⟩
  | @edgeTick d hb hd hr => exact .inr ⟨s.setClockBlock d, hb, alike_setClockBlock s hd.count_eq, hr, rfl⟩
  | clock hr hd => exact .inl (alike_setClockBlock s hd.count_eq)
  | clockPosted hr hd =>
    exact .inl (((alike_setClockBlock s hd.count_eq).trans (alike_postClock _)).trans (alike_attend _ _ _))
  | gapEnd x => exact .inl ((alike_updPort s (by exact fun _ => ⟨rfl, rfl, rfl⟩)).trans (alike_attend _ _ _))
  | selnFall | ignoredRelease | release => exact .inl (alike_updPort s (by exact fun _ => ⟨rfl, rfl, rfl⟩))

theorem alike_oscillate : Alike s s.oscillate := by
  unfold State.oscillate
  split
  · exact alike_setClockBlock s rfl
  · exact ⟨⟨fun _ => rfl, rfl, fun _ => rfl⟩, fun p => by rw [State.port_mapPorts]; exact ⟨rfl, rfl, rfl⟩, rfl⟩

theorem alike_deviceReset : Alike State.reset s.deviceReset :=
  ⟨tableStands_deviceReset s, fun p => by cases p <;> exact ⟨rfl, rfl, rfl⟩, rfl⟩

theorem alike_resetReleased (hb : BitVec 4) (pen : PortSet) : Alike s (s.resetReleased hb pen) :=
  ⟨⟨fun _ => rfl, rfl, fun _ => rfl⟩, fun p => by cases p <;> exact ⟨rfl, rfl, rfl⟩, rfl⟩

/-- A law of the table, the settings and the clock value is kept by every step, where the settled events and the ticks
keep it and it holds at reset. -/
theorem settingsLaw_of_step {P : State → Prop} (congr : ∀ {s t}, Alike s t → P s → P t)
    (event : ∀ {s asker u scan}, Change s asker u scan → P s → P (u.settle scan).1)
    (tick : ∀ {s : State} {hb}, s.tickReady = true → P s → P (s.tickTaken hb)) (reset : P State.reset) {s t : State}
    (hs : P s) (h : step s = .next t) : P t := by
  refine law_of_step (P := P) (fun s q k => congr ⟨⟨fun _ => rfl, rfl, fun _ => rfl⟩, fun _ => ⟨rfl, rfl, rfl⟩, rfl⟩)
    (fun {s t c} he hs => ?_) (fun s _ => congr (alike_oscillate s)) hs h
  cases he with
  | stands => exact hs
  | request _ _ ht =>
    obtain ⟨u, scan, acked, a, hu, -, rfl⟩ := ht
    exact congr ((alike_attend s _ acked).trans (alike_respond _ _ _ a)) (event hu hs)
  | event _ _ hu => exact congr (alike_attend s _ none) (event hu hs)
  | quiet _ hq =>
    obtain ht | ⟨u, hb, hu, hready, rfl⟩ := quiet_alike s hq
    · exact congr ht hs
    · exact tick hready (congr hu hs)
  | reset => exact congr (alike_deviceReset s) reset
  | release hb pen => exact congr (alike_resetReleased s hb pen) hs

/-! ## No two live leases of one port intersect (R27) -/

/-- Every live lease of `t` was live in `s`, of the same port and on the same lines. -/
def FewerLive (s t : State) : Prop :=
  ∀ i b, t.leaseAt i = some b → b.live = true →
    ∃ a, s.leaseAt i = some a ∧ a.live = true ∧ a.holder = b.holder ∧ a.lines = b.lines

theorem FewerLive.trans {s t u : State} (h : FewerLive s t) (h' : FewerLive t u) : FewerLive s u := fun i c hc hlive => by
  obtain ⟨b, hb, hblive, hholder, hlines⟩ := h' i c hc hlive
  obtain ⟨a, ha, halive, hholder', hlines'⟩ := h i b hb hblive
  exact ⟨a, ha, halive, hholder'.trans hholder, hlines'.trans hlines⟩

theorem SameBoard.fewerLive {s t : State} (h : SameBoard s t) : FewerLive s t := fun i b hb hlive => by
  obtain ⟨ht, -⟩ | ⟨b', a, ht, hs, hba⟩ := standing_cases h.leases i
  · cases ht.symm.trans hb
  · cases ht.symm.trans hb
    refine ⟨a, hs, ?_, congrArg Standing.holder hba.symm, congrArg Standing.lines hba.symm⟩
    rwa [Lease.live_eq_standing, ← hba, ← Lease.live_eq_standing]

theorem Leaves.fewerLive {s u : State} {gone : Fin 16 → Bool} {voluntary : Bool} (h : Leaves s u gone voluntary) :
    FewerLive s u := fun i b hb hlive => by
  cases hi : gone i
  · exact ⟨b, by rw [← h.leaseAt_of_kept hi, hb], hlive, rfl, rfl⟩
  · rw [Lease.live, (h.of_gone hi hb).1] at hlive
    cases hlive

theorem fewerLive_grantWaiter {i : Fin 16} {l : Lease} (hl : s.leaseAt i = some l) (hw : l.isWaiting = true) :
    FewerLive s (s.grantWaiter i l) := fun j b hb hlive => by
  rw [State.leaseAt_grantWaiter] at hb
  split at hb
  next hj =>
    subst hj
    rw [hl] at hb
    cases hb
    exact ⟨l, hl, by rw [Lease.live, Lease.isEnded_of_isWaiting hw]; rfl, rfl, rfl⟩
  next => exact ⟨b, hb, hlive, rfl, rfl⟩

theorem fewerLive_settle (scan : Bool) : FewerLive s (s.settle scan).1 :=
  State.settle_induct (P := fun t => FewerLive s t)
    (fun t _ _ hl hw _ _ h => h.trans (fewerLive_grantWaiter t hl hw))
    (fun t h => h.trans (sameBoard_startYields t).fewerLive) (fun t j h => h.trans (leaves_endLease t j _).fewerLive)
    (fun t h => h.trans (sameBoard_withdrawYields t).fewerLive)
    (fun _ b hb hlive => ⟨b, hb, hlive, rfl, rfl⟩) scan

theorem State.sameLivePort_iff {i j : Fin 16} :
    s.sameLivePort i j = true ↔ ∃ a b, s.leaseAt i = some a ∧ s.leaseAt j = some b ∧ a.live = true ∧ b.live = true
      ∧ a.holder = b.holder := by
  unfold State.sameLivePort
  cases s.leaseAt i <;> cases s.leaseAt j <;> simp [and_assoc]

theorem FewerLive.selfLaw {s t : State} (h : FewerLive s t) (hs : SelfLaw s) : SelfLaw t := fun i j hij hlive => by
  obtain ⟨b, b', hb, hb', hblive, hblive', hholder⟩ := t.sameLivePort_iff.1 hlive
  obtain ⟨a, ha, halive, haholder, halines⟩ := h i b hb hblive
  obtain ⟨a', ha', halive', haholder', halines'⟩ := h j b' hb' hblive'
  have hbefore := hs i j hij
    (s.sameLivePort_iff.2 ⟨a, a', ha, ha', halive, halive', by rw [haholder, haholder', hholder]⟩)
  simpa only [State.linesAt, ha, ha', hb, hb', halines, halines'] using hbefore

theorem intersects_comm (a b : LineSet) : intersects a b = intersects b a := by
  rw [intersects, intersects, BitVec.and_comm]

/-- R27: past the SELF check, no live lease of the port intersects the set. -/
theorem State.not_intersects_of_selfConflict {s : State} {p : Port} {lines : LineSet}
    (h : s.selfConflict p lines = none) {i : Fin 16} {l : Lease} (hl : s.leaseAt i = some l) (hlive : l.live = true)
    (hp : l.holder = p) : intersects l.lines lines = false := by
  have := List.find?_eq_none.1 h i (mem_allSlots i)
  simpa [hl, hp, hlive] using this

/-- R27: a placement past the SELF check keeps the live leases of a port apart. -/
theorem selfLaw_placed {s u : State} {i : Fin 16} {l : Lease} (hs : SelfLaw s)
    (hself : s.selfConflict l.holder l.lines = none)
    (hu : ∀ j, u.leaseAt j = if j = i then some l else s.leaseAt j) : SelfLaw u := by
  have hnew : ∀ j b, j ≠ i → u.leaseAt j = some b → b.live = true → b.holder = l.holder →
      intersects b.lines l.lines = false := fun j b hj hb hlive hp =>
    State.not_intersects_of_selfConflict hself (by rw [← hb, hu, if_neg hj]) hlive hp
  have hlease : u.leaseAt i = some l := by rw [hu, if_pos rfl]
  intro j k hjk hlive
  obtain ⟨b, b', hb, hb', hblive, hblive', hholder⟩ := u.sameLivePort_iff.1 hlive
  simp only [State.linesAt, hb, hb']
  by_cases hj : j = i
  · have hk : k ≠ i := fun hk => hjk (hj.trans hk.symm)
    obtain rfl : b = l := by rw [hj, hlease] at hb; exact (Option.some.inj hb).symm
    rw [intersects_comm]
    exact hnew k b' hk hb' hblive' hholder.symm
  · by_cases hk : k = i
    · obtain rfl : b' = l := by rw [hk, hlease] at hb'; exact (Option.some.inj hb').symm
      exact hnew j b hj hb hblive hholder
    · rw [hu, if_neg hj] at hb
      rw [hu, if_neg hk] at hb'
      have hbefore := hs j k hjk (s.sameLivePort_iff.2 ⟨b, b', hb, hb', hblive, hblive', hholder⟩)
      simpa only [State.linesAt, hb, hb'] using hbefore

theorem selfLaw_change {s u : State} {asker : Option Port} {scan : Bool} (h : Change s asker u scan)
    (hs : SelfLaw s) : SelfLaw u := by
  obtain ⟨hboard, -⟩ | hmoves := change_cases s h
  · exact hboard.fewerLive.selfLaw hs
  cases hmoves with
  | @grantNow p a level i hp hc =>
    exact selfLaw_placed (l := (s.newLease p a level).grant s.clock.count (s.port p).margin {}) hs
      (State.selfConflict_of_checkAcquire hc) fun j => s.leaseAt_grantNow i j _
  | @placeWaiting p a level i hp hc =>
    exact selfLaw_placed (l := s.newLease p a level) hs (State.selfConflict_of_checkAcquire hc) fun j =>
      s.leaseAt_placeWaiting i j _
  | rest =>
    exact FewerLive.selfLaw (s := s) (fun i b hb hlive => ⟨b, by rwa [State.leaseAt_mapLines] at hb, hlive, rfl, rfl⟩) hs
  | leave gone voluntary h => exact h.fewerLive.selfLaw hs
  | softReset =>
    exact FewerLive.selfLaw (s := s)
      (fun i b hb => by rw [s.tableFree_softResetChanges i] at hb; cases hb) hs

/-! ## No port's slot use exceeds its quota (R17) -/

/-- A slot use rises by one at most where one slot alone may be newly held. -/
theorem countP_le_succ {f g : Fin 16 → Bool} {i : Fin 16} (h : ∀ j, j ≠ i → f j = true → g j = true) :
    ∀ {l : List (Fin 16)}, l.Nodup → l.countP f ≤ l.countP g + 1
  | [], _ => Nat.zero_le _
  | j :: l, hnodup => by
    obtain ⟨hj, hl⟩ := List.nodup_cons.1 hnodup
    rw [List.countP_cons, List.countP_cons]
    by_cases hji : j = i
    · have hle : l.countP f ≤ l.countP g :=
        List.countP_mono_left fun k hk => h k fun hki => hj (hji ▸ hki ▸ hk)
      split <;> omega
    · have ih := countP_le_succ h hl
      have hjh := h j hji
      cases hf : f j <;> cases hg : g j <;> simp_all
      omega

theorem slotUse_mono {s u : State} {p : Port} (h : ∀ j, (u.slot j).heldBy p = true → (s.slot j).heldBy p = true) :
    u.slotUse p ≤ s.slotUse p := List.countP_mono_left fun j _ => h j

theorem Slot.heldBy_iff {x : Slot} {p : Port} : x.heldBy p = true ↔ ∃ l, x.lease = some l ∧ l.holder = p := by
  unfold Slot.heldBy
  cases x.lease <;> simp

/-- R17: a placement takes one slot, and no other port's. -/
theorem slotUse_placed {s u : State} {i : Fin 16} {l : Lease}
    (hu : ∀ j, u.leaseAt j = if j = i then some l else s.leaseAt j) (p : Port) :
    u.slotUse p ≤ s.slotUse p ∨ l.holder = p ∧ u.slotUse p ≤ s.slotUse p + 1 := by
  have hheld : ∀ j, j ≠ i → (u.slot j).heldBy p = true → (s.slot j).heldBy p = true := fun j hj h => by
    obtain ⟨b, hb, hp⟩ := Slot.heldBy_iff.1 h
    exact Slot.heldBy_iff.2 ⟨b, by rw [← State.leaseAt, hu, if_neg hj] at hb; exact hb, hp⟩
  by_cases hp : l.holder = p
  · exact .inr ⟨hp, countP_le_succ hheld (by decide)⟩
  · refine .inl (slotUse_mono fun j h => ?_)
    by_cases hj : j = i
    · obtain ⟨b, hb, hbp⟩ := Slot.heldBy_iff.1 h
      rw [← State.leaseAt, hu, if_pos hj] at hb
      cases hb
      exact absurd hbp hp
    · exact hheld j hj h

end Sys2Proof.Machine
end

section
/-! SUPPORT. The state of device reset is lawful (chapter 10, R176). -/

namespace Sys2Proof.Machine

@[simp] theorem State.slot_reset (i : Fin 16) : State.reset.slot i = Slot.reset := by
  simp [State.reset, State.slot]

@[simp] theorem State.line_reset (m : Fin 16) : State.reset.line m = Line.reset := by
  simp [State.reset, State.line]

@[simp] theorem State.input_reset (n : Fin 4) : State.reset.input n = HbInput.reset := by
  simp [State.reset, State.input]

@[simp] theorem State.port_reset (p : Port) : State.reset.port p = PortState.reset (if p = .A then 3 else 1) := by
  cases p <;> rfl

@[simp] theorem State.leaseAt_reset (i : Fin 16) : State.reset.leaseAt i = none := by
  rw [State.leaseAt, State.slot_reset, Slot.reset]

theorem State.tableFree_reset : State.reset.TableFree := State.leaseAt_reset

theorem State.slotUse_reset (p : Port) : State.reset.slotUse p = 0 := by
  simp [State.slotUse, Slot.heldBy, Slot.reset]

@[simp] theorem State.queue_reset : State.reset.queue = [] := rfl

@[simp] theorem State.clock_reset : State.reset.clock = Clock.reset := rfl

@[simp] theorem State.pointer_reset : State.reset.pointer = .D := rfl

theorem State.attached_reset (p : Port) : State.reset.attached p = false := rfl

end Sys2Proof.Machine

open Sys2Proof Sys2Proof.Machine

/-- Settles O4: with every slot FREE, every line at its reset value and no port attached, each law is read off the
reset values. -/
theorem lawsHoldAtReset : Obligations.LawsHoldAtReset where
  binding m j := by simp [State.holdsLine, Line.boundSlot, Line.reset]
  queue := ⟨.nil, fun j => by simp [State.waitingAt], .nil⟩
  self i j _ h := by simp [State.sameLivePort] at h
  quota p := by simp [State.slotUse_reset, PortState.reset, Config.maxQuota]
  flags i l hl := by simp at hl
  drive m := by simp [Line.drive, Line.reset]
  attention p := by simp [State.attnLevel, State.attached_reset, PortState.reset]
  detached p _ := by simp [State.slotUse_reset, PortState.reset, Transaction.isShifting]
  privilege := ⟨fun p _ r hr => by simp [PortState.reset, Buffer.request] at hr, rfl⟩
  yields := State.yieldLaw_of_tableFree State.tableFree_reset
  grants w hw := by simp [State.waitingAt] at hw
  clock := by decide
  heartbeat n := by simp [HbInput.reset]
  range := ⟨fun i l hl => by simp at hl, fun p => by simp [PortState.reset, Config.maxMargin]⟩
  deadline := ⟨fun i l hl => by simp at hl, fun m => by simp [State.quarantineNear, Line.reset]⟩
  pulse m u hu := by simp [Line.pattern, Line.reset] at hu
  reset _ := by simp [PortState.reset, Transaction.isShifting]
  settings _ := by simp [PortState.reset, HbInput.reset]
end

section
/-! SUPPORT. The quota, the flags and the drives under the events, and the proofs that the laws of chapters 1, 2 and 5
are kept (R16, R17, R27, R34, R87, R88). -/

namespace Sys2Proof.Machine

variable (s : State)

/-! ## The settings under the events (R162, R164) -/

/-- R164: a setting in range leaves a value within the limit. -/
theorem Setting.over_le {α : Type} {f : α → Nat} {limit : Nat} {x : α} {v : Setting α} (hx : f x ≤ limit)
    (hv : ∀ y, v = .to y → f y ≤ limit) : f (v.over x) ≤ limit := by
  cases v with
  | keep => exact hx
  | undefined => exact hx
  | _ y => exact hv y rfl

theorem State.port_warnOnMargin (q r : Port) (margin : Setting Ticks) :
    (s.warnOnMargin q margin).port r = s.port r := by
  unfold State.warnOnMargin
  split
  · rw [State.warnPort, State.port_mapSlots]
  all_goals rfl

/-- R171: the port's own part of a detach, and the other ports untouched. -/
theorem State.port_detachPort (q r : Port) :
    (s.detachPort q).port r = if r = q then (s.port r).silence else s.port r := by
  rw [State.detachPort, State.port_updPort, State.dropLeases, State.port_mapSlots, State.port_setQueue,
    State.port_mapLines]

/-- A change of attachment keeps what the change itself and a detach keep. -/
theorem State.port_changeAttach_keeps {α : Type} (g : PortState → α) {q : Port} {f : PortState → PortState}
    (hf : ∀ x, g (f x) = g x) (hsilence : ∀ x : PortState, g x.silence = g x) (r : Port) :
    g ((s.changeAttach q f).1.port r) = g (s.port r) := by
  unfold State.changeAttach
  simp only
  split
  · rw [State.port_detachPort, State.port_updPort]
    split
    · rw [hsilence, hf]
    · rfl
  · rw [State.port_updPort]
    split
    · exact hf _
    · rfl

theorem State.port_updLease (i : Fin 16) (f : Lease → Lease) (r : Port) : (s.updLease i f).port r = s.port r :=
  s.port_updSlot i _ r

theorem State.port_grantNow (i : Fin 16) (l : Lease) (r : Port) : (s.grantNow i l).port r = s.port r := by
  rw [State.grantNow, State.port_updSlot, State.bindLines, State.port_mapLines]

theorem State.port_placeWaiting (i : Fin 16) (l : Lease) (r : Port) : (s.placeWaiting i l).port r = s.port r := by
  rw [State.placeWaiting, State.port_updSlot, State.port_setQueue]

theorem State.port_claimTaken (n : Fin 4) (r : Port) : (s.claimTaken n).port r = s.port r := by
  rw [State.claimTaken, State.port_mapInputs, State.claimAll, State.port_mapSlots]

theorem State.port_postClock (r : Port) :
    s.postClock.port r = if s.attached r then { s.port r with clockFlag := true } else s.port r := by
  rw [State.postClock, State.port_mapPorts]

/-- R164: SET_PORT alone changes a port's quota, margin or window. -/
theorem settings_change {u : State} {asker : Option Port} {scan : Bool} (h : Change s asker u scan) :
    (∀ r, (u.port r).quota = (s.port r).quota ∧ (u.port r).margin = (s.port r).margin
        ∧ (u.port r).window = (s.port r).window)
      ∨ ∃ (q : Port) (quota : Setting Nat) (ceiling : Setting (Fin 4)) (margin window : Setting Ticks),
        (∀ n, quota = .to n → s.slotUse q ≤ n ∧ n ≤ Config.maxQuota)
          ∧ (∀ m, margin = .to m → m.toNat ≤ Config.maxMargin) ∧ (∀ w, window = .to w → w.toNat ≤ Config.maxMargin)
          ∧ ∀ r, u.port r =
              if r = q then (s.port r).configure quota ceiling margin window else s.port r := by
  have ports {t : State} (ht : ∀ r, t.port r = s.port r) : ∀ r, (t.port r).quota = (s.port r).quota
      ∧ (t.port r).margin = (s.port r).margin ∧ (t.port r).window = (s.port r).window :=
    fun r => by rw [ht]; exact ⟨rfl, rfl, rfl⟩
  cases h with
  | stands => exact .inl (ports fun _ => rfl)
  | grantNow => exact .inl (ports fun _ => s.port_grantNow _ _ _)
  | placeWaiting => exact .inl (ports fun _ => s.port_placeWaiting _ _ _)
  | freeLive | freeEnded => exact .inl (ports (onlyTable_freeSlot s _).port)
  | endLease => exact .inl (ports (onlyTable_endLease s _ _).port)
  | clearFlags => exact .inl (ports fun r => by rw [State.clearFlags, State.port_updLease])
  | renew | warn => exact .inl (ports (s.port_updLease _ _))
  | order | setLine | rest => exact .inl (ports (s.port_mapLines _))
  | setHeartbeat => exact .inl (ports (s.port_mapInputs _))
  | claim => exact .inl (ports (s.port_claimTaken _))
  | clearClock | setMask | attach => exact .inl (alike_updPort s (by exact fun _ => ⟨rfl, rfl, rfl⟩)).settings
  | resume => exact .inl (alike_postClock _).settings
  | setClock =>
    unfold State.setClockTo
    split
    · exact .inl (alike_postClock _).settings
    · exact .inl (ports (s.port_updClock _))
  | detach | pen =>
    exact .inl fun r => ⟨s.port_changeAttach_keeps PortState.quota (by exact fun _ => rfl) (fun _ => rfl) r,
      s.port_changeAttach_keeps PortState.margin (by exact fun _ => rfl) (fun _ => rfl) r,
      s.port_changeAttach_keeps PortState.window (by exact fun _ => rfl) (fun _ => rfl) r⟩
  | softReset => exact .inl fun r => by rw [State.port_softResetChanges]; exact ⟨rfl, rfl, rfl⟩
  | setPort q ceiling hquota hmargin hwindow =>
    exact .inr ⟨q, _, ceiling, _, _, hquota, hmargin, hwindow, fun r => by
      rw [State.port_warnOnMargin, State.port_updPort]⟩

/-- R17: an event takes slots from a port, or places a lease of the port that asks within its quota. -/
theorem slotUse_change {u : State} {asker : Option Port} {scan : Bool} (h : Change s asker u scan) (p : Port) :
    u.slotUse p ≤ s.slotUse p
      ∨ asker = some p ∧ u.slotUse p ≤ s.slotUse p + 1 ∧ s.slotUse p < (s.port p).quota ∧ u.port p = s.port p := by
  obtain ⟨hboard, -⟩ | hmoves := change_cases s h
  · exact .inl (slotUse_of_standing hboard.leases p).le
  cases hmoves with
  | @grantNow q a level i hp hc =>
    obtain hle | ⟨rfl, hle⟩ := slotUse_placed (fun j => s.leaseAt_grantNow i j (s.newLease q a level)) p
    · exact .inl hle
    · exact .inr ⟨hp, hle, State.slotUse_lt_of_checkAcquire hc, s.port_grantNow _ _ _⟩
  | @placeWaiting q a level i hp hc =>
    obtain hle | ⟨rfl, hle⟩ := slotUse_placed (fun j => s.leaseAt_placeWaiting i j (s.newLease q a level)) p
    · exact .inl hle
    · exact .inr ⟨hp, hle, State.slotUse_lt_of_checkAcquire hc, s.port_placeWaiting _ _ _⟩
  | rest => exact .inl (slotUse_of_standing (fun i => by rw [State.leaseAt_mapLines]) p).le
  | leave gone voluntary h =>
    refine .inl (slotUse_mono fun j hj => ?_)
    cases hg : gone j
    · rwa [h.slot_of_kept hg] at hj
    · obtain ⟨b, hb, hbp⟩ := Slot.heldBy_iff.1 hj
      obtain hnone | ⟨a, c, ha, hfinish⟩ := h.leases j hg
      · cases hnone.symm.trans hb
      · cases hfinish.symm.trans hb
        exact Slot.heldBy_iff.2 ⟨a, ha, by rwa [Lease.holder_finish] at hbp⟩
  | softReset => exact .inl (slotUse_mono fun j hj => by simp [Slot.toFree_eq, Slot.heldBy] at hj)

/-- R17: every event keeps the quotas. -/
theorem quotaLaw_change {u : State} {asker : Option Port} {scan : Bool} (h : Change s asker u scan)
    (hs : QuotaLaw s) : QuotaLaw u := fun p => by
  obtain hle | ⟨-, hle, hlt, hport⟩ := slotUse_change s h p
  · obtain hsettings | ⟨q, quota, ceiling, margin, window, hquota, -, -, hport⟩ := settings_change s h
    · rw [(hsettings p).1]
      exact ⟨hle.trans (hs p).1, (hs p).2⟩
    · rw [hport]
      split
      · rename_i hp
        subst hp
        have hin : s.slotUse p ≤ quota.over (s.port p).quota ∧ quota.over (s.port p).quota ≤ Config.maxQuota := by
          cases quota with
          | keep => exact hs p
          | undefined => exact hs p
          | _ n => exact hquota n rfl
        exact ⟨hle.trans hin.1, hin.2⟩
      · exact ⟨hle.trans (hs p).1, (hs p).2⟩
  · rw [hport]
    exact ⟨hle.trans hlt, (hs p).2⟩

/-! ## The flags of a lease's state (R16) -/

/-- R16: every event leaves pending only what the lease's new state may have pending. -/
theorem flagsLegal_kept (clock : Word) : KeptByEvents clock (fun _ => True) fun l => l.flagsLegal = true where
  new _ _ := rfl
  grant hn _ := by obtain rfl | rfl := hn <;> rfl
  renew hphase _ _ hl := by simpa [Lease.flagsLegal, Lease.renew, hphase] using hl
  clear {l kinds} hl := by
    cases hp : l.phase <;> simp [Lease.flagsLegal, Notices.minus, Notices.endedOnly, hp] at hl ⊢ <;> grind
  warn {l} hl := by cases hp : l.phase <;> simpa [Lease.flagsLegal, Lease.warn, hp] using hl
  finish {l c} hl := by
    cases hp : l.phase <;> simp [Lease.flagsLegal, Lease.finish, hp] at hl ⊢ <;> first | rfl | exact hl
  start {l d} _ hl := by cases hp : l.phase <;> simp [Lease.flagsLegal, Lease.startYield, hp] at hl ⊢ <;> simp [hl]
  withdraw {l} hl := by cases hp : l.phase <;> simp [Lease.flagsLegal, Lease.withdraw, hp] at hl ⊢ <;> simp [hl]

/-! ## The drives (R88) -/

/-- The line drives what its occupancy gives. -/
def Line.drives (x : Line) : Prop := x.current = x.drive

theorem Line.drives_bind (i : Fin 16) (x : Line) : (x.bind i).drives := rfl

theorem Line.drives_toRest (x : Line) : x.toRest.drives := rfl

theorem Line.drives_toFault (clock : Word) (x : Line) : (x.toFault clock).drives := by
  unfold Line.toFault
  split <;> rfl

theorem Line.drives_order (d : HolderDrive) {x : Line} (h : x.drives) : (x.order d).drives := by
  unfold Line.order
  split
  · rfl
  all_goals exact h

theorem Line.drives_configure (rest fault : Setting Drive) (qlen : Setting Byte) (access : Setting PortSet) {x : Line}
    (h : x.drives) : (x.configure rest fault qlen access).drives := by
  cases hx : x.occ <;> simp_all [Line.drives, Line.configure, Line.drive]

theorem Line.drives_tick {x : Line} (h : x.drives) : x.tick.drives := by
  unfold Line.tick
  split
  · rfl
  all_goals exact h

end Sys2Proof.Machine
end

section
/-! SUPPORT. The lines under the events, and the proofs that the laws of chapters 1, 2 and 5 are kept (R16, R17, R27,
R34, R87, R88). -/

namespace Sys2Proof.Machine

variable (s : State)

/-! ## What the events make of a line (R88 to R92, R97, R103) -/

/-- What the events make of a line at the clock value `clock` keeps `Q`. -/
structure LineKeptByEvents (clock : Word) (Q : Line → Prop) : Prop where
  reset : Q Line.reset
  bind : ∀ {i : Fin 16} {x : Line}, Q x → Q (x.bind i)
  rest : ∀ {x : Line}, Q x → Q x.toRest
  fault : ∀ {x : Line}, Q x → Q (x.toFault clock)
  order : ∀ {kind delay onTime period : Byte} {d : HolderDrive} {x : Line},
    orderedDrive clock kind delay onTime period = some d → Q x → Q (x.order d)
  configure : ∀ {rest fault : Setting Drive} {qlen : Setting Byte} {access : Setting PortSet} {x : Line}, Q x →
    Q (x.configure rest fault qlen access)

/-- Every line has `Q`. -/
def Lines (Q : Line → Prop) (s : State) : Prop := ∀ m, Q (s.line m)

theorem State.line_updLease (i : Fin 16) (f : Lease → Lease) (m : Fin 16) : (s.updLease i f).line m = s.line m :=
  s.line_updSlot i _ m

theorem State.line_warnOnMargin (q : Port) (margin : Setting Ticks) (m : Fin 16) :
    (s.warnOnMargin q margin).line m = s.line m := by
  unfold State.warnOnMargin
  split
  · rw [State.warnPort, State.line_mapSlots]
  all_goals rfl

section Lines

variable {clock : Word} {Q : Line → Prop}

theorem lines_of_lines {s t : State} (h : ∀ m, t.line m = s.line m) (hs : Lines Q s) : Lines Q t := fun m => by
  rw [h]
  exact hs m

theorem lines_mapLines {s : State} {f : Fin 16 → Line → Line} (hf : ∀ m x, Q x → Q (f m x)) (hs : Lines Q s) :
    Lines Q (s.mapLines f) := fun m => by
  rw [State.line_mapLines]
  exact hf m _ (hs m)

variable (hQ : LineKeptByEvents clock Q)

include hQ

theorem lines_endLease {s : State} {i : Fin 16} {c : Cause} (hclock : s.clock.count = clock) (hs : Lines Q s) :
    Lines Q (s.endLease i c) := fun m => by
  rw [State.line_endLease, hclock]
  split
  · exact hQ.fault (hs m)
  · exact hs m

/-- R38, R68: the scan binds lines, and the evaluation unbinds those of the leases that it ends. -/
theorem lines_settle {u : State} (scan : Bool) (hclock : u.clock.count = clock) (hu : Lines Q u) :
    Lines Q (u.settle scan).1 := by
  refine (State.settle_induct (P := fun t => OnlyTable u t ∧ Lines Q t) ?grant ?start ?preempt ?withdraw
    ⟨.refl u, hu⟩ scan).2
  case grant =>
    rintro t i l - - - - ⟨hut, ht⟩
    refine ⟨hut.trans (onlyTable_grantWaiter t i l), fun m => ?_⟩
    rw [State.line_grantWaiter]
    split
    · exact hQ.bind (ht m)
    · exact ht m
  case start =>
    rintro t ⟨hut, ht⟩
    exact ⟨hut.trans (onlyTable_startYields t), lines_of_lines (t.line_mapSlots _) ht⟩
  case preempt =>
    rintro t j ⟨hut, ht⟩
    exact ⟨hut.trans (onlyTable_endLease t j _), lines_endLease hQ (by rw [hut.clock, hclock]) ht⟩
  case withdraw =>
    rintro t ⟨hut, ht⟩
    exact ⟨hut.trans (onlyTable_withdrawYields t), lines_of_lines (t.line_mapSlots _) ht⟩

theorem lines_leave {s u : State} {gone : Fin 16 → Bool} {voluntary : Bool} (h : Leaves s u gone voluntary)
    (hclock : s.clock.count = clock) (hs : Lines Q s) : Lines Q u := fun m => by
  obtain ⟨-, hline, -, -⟩ := h.vacated
  rw [hline, hclock]
  split
  · split
    · split
      · exact hQ.rest (hs m)
      · exact hQ.fault (hs m)
    · exact hs m
  · exact hs m

theorem lines_changeAttach {s : State} {q : Port} {f : PortState → PortState}
    (hf : ∀ x, (f x).margin = x.margin ∧ (f x).window = x.window) (hclock : s.clock.count = clock) (hs : Lines Q s) :
    Lines Q (s.changeAttach q f).1 := by
  unfold State.changeAttach
  simp only
  split
  · exact lines_leave hQ (leaves_detachPort s hf) hclock hs
  · exact lines_of_lines (s.line_updPort q f) hs

theorem lines_change {s u : State} {asker : Option Port} {scan : Bool} (h : Change s asker u scan)
    (hclock : s.clock.count = clock) (hs : Lines Q s) : Lines Q u := by
  cases h with
  | stands => exact hs
  | grantNow =>
    refine fun m => ?_
    rw [State.line_grantNow]
    split
    · exact hQ.bind (hs m)
    · exact hs m
  | placeWaiting => exact lines_of_lines (s.line_placeWaiting _ · _) hs
  | freeLive | freeEnded => exact lines_leave hQ (leaves_freeSlot s _) hclock hs
  | endLease cause => exact lines_leave hQ (leaves_endLease s _ cause) hclock hs
  | clearFlags i kinds => exact lines_of_lines (fun m => by rw [State.clearFlags, State.line_updLease]) hs
  | renew | warn => exact lines_of_lines (s.line_updLease _ _) hs
  | clearClock | setMask | attach => exact lines_of_lines (s.line_updPort _ _) hs
  | order i lines hd =>
    refine lines_mapLines (fun m x hx => ?_) hs
    split
    · exact hQ.order (by rwa [hclock] at hd) hx
    · exact hx
  | setLine =>
    refine lines_mapLines (fun m x hx => ?_) hs
    split
    · exact hQ.configure hx
    · exact hx
  | rest =>
    refine lines_mapLines (fun m x hx => ?_) hs
    split
    · exact hQ.rest hx
    · exact hx
  | claim n => exact lines_of_lines (fun m => by rw [State.claimTaken, State.line_mapInputs, State.claimAll,
      State.line_mapSlots]) hs
  | resume => exact lines_of_lines (State.line_mapPorts _ _) (lines_of_lines (s.line_updClock _) hs)
  | setClock =>
    unfold State.setClockTo
    split
    · exact lines_of_lines (State.line_mapPorts _ _)
        (lines_of_lines (State.line_updClock _ _) (lines_of_lines (s.line_updClock _) hs))
    · exact lines_of_lines (s.line_updClock _) hs
  | setHeartbeat => exact lines_of_lines (s.line_mapInputs _) hs
  | setPort q =>
    exact lines_of_lines (fun m => by rw [State.line_warnOnMargin, State.line_updPort]) hs
  | detach | pen => exact lines_changeAttach hQ (by exact fun _ => ⟨rfl, rfl⟩) hclock hs
  | softReset =>
    refine fun m => ?_
    rw [State.line_softResetChanges]
    split
    · exact hs m
    · exact hQ.rest (hs m)

end Lines

/-- R88: every event leaves each line driving what its occupancy gives. -/
theorem drives_kept (clock : Word) : LineKeptByEvents clock Line.drives where
  reset := rfl
  bind _ := Line.drives_bind _ _
  rest _ := Line.drives_toRest _
  fault _ := Line.drives_toFault _ _
  order _ h := Line.drives_order _ h
  configure h := Line.drives_configure _ _ _ _ h

end Sys2Proof.Machine

open Sys2Proof Sys2Proof.Machine

/-- Settles O5: the events, their scans and evaluations, and the ticks each keep the binding of lines. -/
theorem bindingLawKept : Obligations.BindingLawKept := fun _ _ hs h =>
  tableLaw_of_step (P := fun s => BindingLaw s) (fun h => (sameBoard_of_stands h).bindingLaw)
    (fun h hs => bindingLaw_settle _ (bindingLaw_change h hs)) (sameBoard_tickTaken _ _).bindingLaw
    lawsHoldAtReset.binding hs h

/-- Settles O6: placements queue at their level, and every other event takes waiters out of the queue. -/
theorem waitQueueLawKept : Obligations.WaitQueueLawKept := fun _ _ hs h =>
  tableLaw_of_step (P := fun s => QueueLaw s) (fun h => (sameBoard_of_stands h).queueLaw)
    (fun h hs => queueLaw_settle _ (queueLaw_change h hs)) (sameBoard_tickTaken _ _).queueLaw
    lawsHoldAtReset.queue hs h

/-- Settles O7: an ACQUIRE is checked before it takes a slot, SET_PORT before it lowers a quota, and every other
event only takes leases away. -/
theorem selfAndQuotaLawsKept : Obligations.SelfAndQuotaLawsKept := by
  refine ⟨fun _ _ hs h => ?_, fun _ _ hs h => ?_⟩
  · exact tableLaw_of_step (P := fun s => SelfLaw s) (fun h => (sameBoard_of_stands h).selfLaw)
      (fun h hs => (fewerLive_settle _ _).selfLaw (selfLaw_change h hs)) (sameBoard_tickTaken _ _).selfLaw
      lawsHoldAtReset.self hs h
  · refine settingsLaw_of_step (P := fun s => QuotaLaw s) (fun h hs p => ?congr) (fun {s asker u scan} h hs p => ?event)
      (fun {s hb} _ hs p => ?tick) lawsHoldAtReset.quota hs h
    case congr =>
      rw [(h.settings p).1, slotUse_of_standing (sameBoard_of_stands h.table).leases]
      exact hs p
    case event =>
      rw [State.port_settle, (sameTerms_settle u scan).slotUse]
      exact quotaLaw_change s h hs p
    case tick =>
      rw [slotUse_of_standing (sameBoard_tickTaken s hb).leases, State.port_tickTaken]
      exact hs p

/-- Settles O8: each transition posts and clears flags as its new state allows. -/
theorem noticeFlagLawKept : Obligations.NoticeFlagLawKept := fun _ _ hs h =>
  tableLaw_of_step (P := Leases fun l => l.flagsLegal = true) (fun h => leases_of_slots h.1)
    (fun {s _ u scan} h hs =>
      leases_settle (flagsLegal_kept u.clock.count) scan rfl (fun _ => trivial)
        (leases_change (flagsLegal_kept s.clock.count) h rfl hs))
    (fun {s hb} => leases_of_slots (s.slot_tickTaken hb)) lawsHoldAtReset.flags hs h

/-- Settles O9: binding, unbinding, orders, settings and ticks each set the pin by the occupancy they leave. -/
theorem lineDriveLawKept : Obligations.LineDriveLawKept := fun _ _ hs h =>
  tableLaw_of_step (P := Lines Line.drives) (fun h => lines_of_lines h.2.2)
    (fun {s _ u scan} h hs =>
      lines_settle (drives_kept u.clock.count) scan rfl (lines_change (drives_kept s.clock.count) h rfl hs))
    (fun {s hb} hs m => by
      rw [State.line_tickTaken]
      exact Line.drives_tick (hs m))
    lawsHoldAtReset.drive hs h
end

section
/-! SUPPORT. What an event leaves beside the table, and what it makes of a port (chapters 8 to 10). -/

namespace Sys2Proof.Machine

variable (s : State)

/-! ## What no event touches -/

/-- The clock value, the reset, the pointer, and what is the model's own, stand. -/
structure Framed (s t : State) : Prop where
  count : t.clock.count = s.clock.count
  inReset : t.inReset = s.inReset
  pointer : t.pointer = s.pointer
  choices : t.choices = s.choices
  pending : t.pending = s.pending

theorem Framed.trans {s t u : State} (h : Framed s t) (h' : Framed t u) : Framed s u :=
  ⟨h'.count.trans h.count, h'.inReset.trans h.inReset, h'.pointer.trans h.pointer, h'.choices.trans h.choices,
    h'.pending.trans h.pending⟩

theorem OnlyTable.framed {s t : State} (h : OnlyTable s t) : Framed s t :=
  ⟨congrArg Clock.count h.clock, h.inReset, h.pointer, h.choices, h.pending⟩

theorem framed_mapPorts (f : Port → PortState → PortState) : Framed s (s.mapPorts f) := ⟨rfl, rfl, rfl, rfl, rfl⟩

theorem framed_updPort (p : Port) (f : PortState → PortState) : Framed s (s.updPort p f) := framed_mapPorts s _

theorem framed_mapInputs (f : Fin 4 → HbInput → HbInput) : Framed s (s.mapInputs f) := ⟨rfl, rfl, rfl, rfl, rfl⟩

theorem framed_updClock {f : Clock → Clock} (hf : (f s.clock).count = s.clock.count) : Framed s (s.updClock f) :=
  ⟨hf, rfl, rfl, rfl, rfl⟩

theorem onlyTable_updSlot (i : Fin 16) (f : Slot → Slot) : OnlyTable s (s.updSlot i f) := onlyTable_mapSlots s _

theorem onlyTable_updLease (i : Fin 16) (f : Lease → Lease) : OnlyTable s (s.updLease i f) := onlyTable_updSlot s i _

theorem onlyTable_clearFlags (i : Fin 16) (kinds : Notices) : OnlyTable s (s.clearFlags i kinds) :=
  onlyTable_updLease s i _

theorem onlyTable_grantNow (i : Fin 16) (l : Lease) : OnlyTable s (s.grantNow i l) :=
  (onlyTable_mapLines s _).trans (onlyTable_updSlot _ _ _)

theorem onlyTable_placeWaiting (i : Fin 16) (l : Lease) : OnlyTable s (s.placeWaiting i l) :=
  (onlyTable_setQueue s _).trans (onlyTable_updSlot _ _ _)

theorem onlyTable_warnOnMargin (q : Port) (margin : Setting Ticks) : OnlyTable s (s.warnOnMargin q margin) := by
  unfold State.warnOnMargin
  split
  · exact onlyTable_mapSlots s _
  all_goals exact .refl s

theorem onlyTable_dropLeases (p : Port) : OnlyTable s (s.dropLeases p) :=
  ((onlyTable_mapLines s _).trans (onlyTable_setQueue _ _)).trans (onlyTable_mapSlots _ _)

theorem framed_changeAttach (q : Port) (f : PortState → PortState) : Framed s (s.changeAttach q f).1 := by
  unfold State.changeAttach
  simp only
  split
  · exact (framed_updPort s q f).trans ((onlyTable_dropLeases _ q).framed.trans (framed_updPort _ q _))
  · exact framed_updPort s q f

theorem framed_change {u : State} {asker : Option Port} {scan : Bool} (h : Change s asker u scan) : Framed s u := by
  cases h with
  | stands => exact (OnlyTable.refl s).framed
  | grantNow => exact (onlyTable_grantNow s _ _).framed
  | placeWaiting => exact (onlyTable_placeWaiting s _ _).framed
  | freeLive | freeEnded => exact (onlyTable_freeSlot s _).framed
  | endLease => exact (onlyTable_endLease s _ _).framed
  | clearFlags => exact (onlyTable_clearFlags s _ _).framed
  | renew | warn => exact (onlyTable_updLease s _ _).framed
  | clearClock | setMask | attach => exact framed_updPort s _ _
  | order | setLine | rest => exact (onlyTable_mapLines s _).framed
  | claim n => exact (onlyTable_mapSlots s _).framed.trans (framed_mapInputs (s.claimAll n) _)
  | resume => exact (framed_updClock s (Clock.count_enterReference _)).trans (framed_mapPorts _ _)
  | @setClock policy resume trim =>
    have hset := framed_updClock s (Clock.count_configure policy resume trim s.clock)
    unfold State.setClockTo
    split
    · exact (hset.trans (framed_updClock _ (Clock.count_enterReference _))).trans (framed_mapPorts _ _)
    · exact hset
  | setHeartbeat => exact framed_mapInputs s _
  | setPort q => exact (framed_updPort s q _).trans (onlyTable_warnOnMargin _ q _).framed
  | detach | pen => exact framed_changeAttach s _ _
  | softReset =>
    exact (((onlyTable_mapSlots s _).trans (onlyTable_setQueue _ _)).trans (onlyTable_mapLines _ _)).framed.trans
      (framed_mapPorts _ _)

theorem framed_settle (scan : Bool) : Framed s (s.settle scan).1 := (onlyTable_settle s scan).framed

/-! ## What an event makes of a port -/

theorem State.attached_congr {s t : State} {p : Port} (hreset : t.inReset = s.inReset)
    (hpen : (t.port p).pen = (s.port p).pen) (hcmd : (t.port p).cmdDetach = (s.port p).cmdDetach) :
    t.attached p = s.attached p := by
  rw [State.attached, State.attached, hreset, hpen, hcmd]

/-- What an event makes of port `r` before the attention units and the answer. -/
inductive PortTouch (s u : State) (asker : Option Port) (r : Port) : PortState → Prop where
  | stands : PortTouch s u asker r (s.port r)
  | clockRead : PortTouch s u asker r { s.port r with clockFlag := false }
  | masked (kinds : Byte) (m : AttnMode) : PortTouch s u asker r ((s.port r).setMask kinds m)
  | configured (quota : Setting Nat) (ceiling : Setting (Fin 4)) (margin window : Setting Ticks) :
      PortTouch s u asker r ((s.port r).configure quota ceiling margin window)
  | attached (pen cmdDetach : Bool) (h : s.attached r = true → u.attached r = true)
      (hA : r = .A → cmdDetach = true → (s.port r).cmdDetach = true) :
      PortTouch s u asker r { s.port r with pen := pen, cmdDetach := cmdDetach }
  | detached (pen cmdDetach : Bool) (hu : u.attached r = false) (hslots : u.slotUse r = 0)
      (hA : r = .A → cmdDetach = true → (s.port r).cmdDetach = true)
      (hasker : asker = none
        ∨ r ≠ .A ∧ ∃ p port, asker = some p ∧ (s.port p).buffer = .pending (.detach port)) :
      PortTouch s u asker r { s.port r with pen := pen, cmdDetach := cmdDetach }.silence
  | clockPosted (h : s.attached r = true) : PortTouch s u asker r { s.port r with clockFlag := true }
  | cleared (hfree : u.TableFree) : PortTouch s u asker r { s.port r with buffer := .empty, clockFlag := false, gap := none }

/-- R170: a port that is detached holds no slot. -/
theorem State.slotUse_detachPort (q : Port) : (s.detachPort q).slotUse q = 0 := by
  refine List.countP_eq_zero.2 fun j _ => ?_
  rw [State.slot_detachPort]
  split
  · simp [Slot.toFree_eq, Slot.heldBy]
  · assumption

theorem portTouch_changeAttach {q : Port} {f : PortState → PortState} (pen cmdDetach : Bool)
    (hf : f (s.port q) = { s.port q with pen := pen, cmdDetach := cmdDetach })
    (hA : q = .A → cmdDetach = true → (s.port q).cmdDetach = true) {asker : Option Port}
    (hasker : asker = none ∨ q ≠ .A ∧ ∃ p port, asker = some p ∧ (s.port p).buffer = .pending (.detach port))
    (r : Port) :
    PortTouch s (s.changeAttach q f).1 asker r ((s.changeAttach q f).1.port r) := by
  by_cases hr : r = q
  · subst hr
    have hport : (s.updPort r f).port r = { s.port r with pen := pen, cmdDetach := cmdDetach } := by
      rw [State.port_updPort, if_pos rfl, hf]
    unfold State.changeAttach
    simp only
    split
    · rename_i hfalls
      rw [Bool.and_eq_true, Bool.not_eq_true'] at hfalls
      have hdetached : ((s.updPort r f).detachPort r).attached r = false := by
        rw [← hfalls.2]
        refine State.attached_congr ?_ ?_ ?_
        · exact ((onlyTable_dropLeases _ r).framed.trans (framed_updPort _ r _)).inReset
        all_goals
          rw [State.port_detachPort, if_pos rfl]
          rfl
      rw [State.port_detachPort, if_pos rfl, hport]
      exact .detached pen cmdDetach hdetached (State.slotUse_detachPort _ r) hA hasker
    · rename_i hkept
      rw [hport]
      refine .attached pen cmdDetach (fun hs => ?_) hA
      simpa [hs] using hkept
  · have hstands : (s.changeAttach q f).1.port r = s.port r := by
      unfold State.changeAttach
      simp only
      split
      · rw [State.port_detachPort, if_neg hr, State.port_updPort, if_neg hr]
      · rw [State.port_updPort, if_neg hr]
    rw [hstands]
    exact .stands

theorem port_change {u : State} {asker : Option Port} {scan : Bool} (h : Change s asker u scan) (r : Port) :
    PortTouch s u asker r (u.port r) := by
  have stands {t : State} (ht : t.port r = s.port r) : PortTouch s u asker r (t.port r) := by
    rw [ht]
    exact .stands
  cases h with
  | stands => exact .stands
  | grantNow => exact stands (s.port_grantNow _ _ _)
  | placeWaiting => exact stands (s.port_placeWaiting _ _ _)
  | freeLive | freeEnded => exact stands ((onlyTable_freeSlot s _).port r)
  | endLease => exact stands ((onlyTable_endLease s _ _).port r)
  | clearFlags => exact stands ((onlyTable_clearFlags s _ _).port r)
  | renew | warn => exact stands ((onlyTable_updLease s _ _).port r)
  | order | setLine | rest => exact stands (s.port_mapLines _ r)
  | setHeartbeat => exact stands (s.port_mapInputs _ r)
  | claim => exact stands (s.port_claimTaken _ r)
  | clearClock | setMask | attach =>
    rw [State.port_updPort]
    split
    · first
        | exact .clockRead
        | exact .masked _ _
        | exact .attached _ false (fun hs => by
            rw [State.attached, Bool.and_eq_true, Bool.and_eq_true] at hs
            rw [State.attached, State.inReset_updPort, State.port_updPort, if_pos ‹_›, hs.1.1, hs.1.2]
            rfl) nofun
    · exact .stands
  | resume hready =>
    rw [State.port_postClock]
    split
    · rename_i hr
      exact .clockPosted hr
    · exact .stands
  | setClock =>
    unfold State.setClockTo
    split
    · rw [State.port_postClock]
      split
      · rename_i hr
        exact .clockPosted hr
      · exact .stands
    · exact .stands
  | setPort q =>
    rw [State.port_warnOnMargin, State.port_updPort]
    split
    · exact .configured _ _ _ _
    · exact .stands
  | @detach p q port hp hb hq =>
    exact portTouch_changeAttach s (s.port q).pen true rfl (fun hA => absurd hA hq) (.inr ⟨hq, p, port, hp, hb⟩) r
  | pen x high hp => exact portTouch_changeAttach s high (s.port x).cmdDetach rfl (fun _ h => h) (.inl hp) r
  | softReset =>
    rw [State.port_softResetChanges]
    exact .cleared s.tableFree_softResetChanges

end Sys2Proof.Machine
end

section
/-! SUPPORT. The attention units, the ports and the reset under every command (chapters 8 to 10). -/

namespace Sys2Proof.Machine

variable (s : State)

/-! ## The reset and the queue of commands (R176, R177) -/

theorem framed_attend (t : State) (acked : Option Port) : Framed t (s.attend acked t) := ⟨rfl, rfl, rfl, rfl, rfl⟩

/-- A request leaves the reset and the queue of commands. -/
theorem TakenAs.frame {s t : State} {p : Port} {r : Request} (h : TakenAs s p r t) :
    t.inReset = s.inReset ∧ t.pending = s.pending := by
  obtain ⟨u, scan, acked, a, hu, -, rfl⟩ := h
  have hframed := ((framed_change s hu).trans (framed_settle u scan)).trans (framed_attend s _ acked)
  exact ⟨hframed.inReset, hframed.pending⟩

/-- So does every command that takes no lease event. -/
theorem Quiet.frame {s t : State} (h : Quiet s t) : t.inReset = s.inReset ∧ t.pending = s.pending := by
  cases h with
  | tick hb => exact ⟨s.inReset_tickTaken hb, s.pending_tickTaken hb⟩
  | edgeTick hb => exact ⟨(s.setClockBlock _).inReset_tickTaken hb, (s.setClockBlock _).pending_tickTaken hb⟩
  | _ => exact ⟨rfl, rfl⟩

theorem Effect.pending_eq {s t : State} {c : Instr} (h : Effect s c t) : t.pending = s.pending := by
  cases h with
  | stands => rfl
  | request _ _ ht => exact ht.frame.2
  | @event u scan _ _ hu => exact ((framed_change s hu).trans (framed_settle u scan)).pending
  | quiet _ hq => exact hq.frame.2
  | reset | release => rfl

/-- R176, R177: DEVICE_RESET and RESET_RELEASE alone enter and leave the reset. -/
theorem Effect.inReset_cases {s t : State} {c : Instr} (h : Effect s c t) :
    t.inReset = s.inReset ∨ c = .deviceReset ∧ t.inReset = true
      ∨ (∃ hb pen, c = .resetRelease hb pen) ∧ t.inReset = false := by
  cases h with
  | stands => exact .inl rfl
  | request _ _ ht => exact .inl ht.frame.1
  | @event u scan _ _ hu => exact .inl ((framed_change s hu).trans (framed_settle u scan)).inReset
  | quiet _ hq => exact .inl hq.frame.1
  | reset hc => exact .inr (.inl ⟨hc, rfl⟩)
  | release hb pen hc => exact .inr (.inr ⟨⟨hb, pen, hc⟩, rfl⟩)

/-! ## The part in reset (R176) -/

theorem State.nextRequest_of_inReset {s : State} (hr : s.inReset = true) : s.nextRequest = none := by
  rw [State.nextRequest, if_pos hr]

theorem State.tickReady_of_inReset {s : State} (hr : s.inReset = true) : s.tickReady = false := by
  rw [State.tickReady, hr]
  rfl

theorem State.attached_of_inReset {s : State} (hr : s.inReset = true) (p : Port) : s.attached p = false := by
  rw [State.attached, hr]
  rfl

/-- R145, R146, R150: what a transaction makes of a port. -/
inductive Transacts (s : State) : State → Prop where
  | selnFall (x : Port) :
      Transacts s (s.updPort x fun q => { q with transaction := if s.attached x then .shifting q.buffer else .ignored })
  | ignoredRelease (x : Port) (ht : (s.port x).transaction = .ignored) :
      Transacts s (s.updPort x fun q => { q with transaction := .idle })
  | release {x : Port} {copy : Buffer} (mosi : List Bool) (ht : (s.port x).transaction = .shifting copy) :
      Transacts s (s.updPort x fun q =>
        { q with transaction := .idle, buffer := releasedBuffer x copy q.buffer (bytesOfBits mosi) })

/-- A command finds the part in reset, and the part stands but for a transaction, or is reset or released; or it
finds the part running. -/
theorem Effect.cases_inReset {s t : State} {c : Instr} (h : Effect s c t) (hr : s.inReset = true) :
    t = s ∨ Transacts s t ∨ t = s.deviceReset ∨ ∃ hb pen, t = s.resetReleased hb pen := by
  cases h with
  | stands => exact .inl rfl
  | request hn => cases (State.nextRequest_of_inReset hr).symm.trans hn
  | event _ hr' => cases hr.symm.trans hr'
  | reset => exact .inr (.inr (.inl rfl))
  | release hb pen => exact .inr (.inr (.inr ⟨hb, pen, rfl⟩))
  | quiet _ hq =>
    cases hq with
    | selnFall x => exact .inr (.inl (.selnFall x))
    | ignoredRelease x ht => exact .inr (.inl (.ignoredRelease x ht))
    | release mosi ht => exact .inr (.inl (.release mosi ht))
    | tick _ hready => cases (State.tickReady_of_inReset hr).symm.trans hready
    | @edgeTick d _ _ hready => cases (State.tickReady_of_inReset (s := s.setClockBlock d) hr).symm.trans hready
    | clock hr' | clockPosted hr' | gapEnd _ hr' => cases hr.symm.trans hr'

/-- R176: a part that is reset holds its reset values. -/
theorem State.port_deviceReset (p : Port) :
    s.deviceReset.port p =
      { PortState.reset (if p = .A then 3 else 1) with transaction := (s.port p).transaction.ignore } := by
  cases p <;> rfl

theorem State.port_resetReleased (hb : BitVec 4) (pen : PortSet) (p : Port) :
    (s.resetReleased hb pen).port p = { s.port p with pen := pen.getLsbD (portBit p) } := by
  cases p <;> rfl

theorem State.input_resetReleased (hb : BitVec 4) (pen : PortSet) (n : Fin 4) :
    (s.resetReleased hb pen).input n =
      { s.input n with level := hb.getLsbD n.val, stable := 0, seeding := false, pin := hb.getLsbD n.val } :=
  s.input_mapInputs (fun n x =>
    { x with level := hb.getLsbD n.val, stable := 0, seeding := false, pin := hb.getLsbD n.val }) n

theorem Transaction.isShifting_ignore (x : Transaction) : x.ignore.isShifting = false := by cases x <;> rfl

theorem resetLaw_deviceReset : ResetLaw s.deviceReset := fun _ =>
  ⟨State.slot_reset, rfl, State.line_reset, rfl, rfl, fun p => by
    rw [State.port_deviceReset]
    exact ⟨rfl, rfl, rfl, rfl, Transaction.isShifting_ignore _⟩⟩

/-- R176: a transaction leaves the part in reset, with nothing to shift out. -/
theorem resetLaw_transacts {s t : State} (h : Transacts s t) (hs : ResetLaw s) : ResetLaw t := by
  intro hr
  have hr' : s.inReset = true := by cases h <;> exact hr
  obtain ⟨hslot, hqueue, hline, hclock, hpointer, hport⟩ := hs hr'
  have steps {x : Port} {f : PortState → PortState} (hf : ∀ q, (f q).attn = q.attn ∧ (f q).buffer = q.buffer
      ∧ (f q).clockFlag = q.clockFlag ∧ (f q).gap = q.gap ∧ (f q).transaction.isShifting = false) (p : Port) :
      ((s.updPort x f).port p).attn = false ∧ ((s.updPort x f).port p).buffer = .empty
        ∧ ((s.updPort x f).port p).clockFlag = false ∧ ((s.updPort x f).port p).gap = none
        ∧ ((s.updPort x f).port p).transaction.isShifting = false := by
    obtain ⟨hattn, hbuffer, hflag, hgap, htrans⟩ := hport p
    rw [State.port_updPort]
    split
    · obtain ⟨hfattn, hfbuffer, hfflag, hfgap, hftrans⟩ := hf (s.port p)
      rw [hfattn, hfbuffer, hfflag, hfgap]
      exact ⟨hattn, hbuffer, hflag, hgap, hftrans⟩
    · exact hport p
  cases h with
  | selnFall x =>
    refine ⟨hslot, hqueue, hline, hclock, hpointer, steps fun q => ⟨rfl, rfl, rfl, rfl, ?_⟩⟩
    rw [State.attached_of_inReset hr']
    rfl
  | ignoredRelease x => exact ⟨hslot, hqueue, hline, hclock, hpointer, steps fun q => ⟨rfl, rfl, rfl, rfl, rfl⟩⟩
  | release mosi ht =>
    obtain ⟨-, -, -, -, hnot⟩ := hport _
    rw [ht] at hnot
    cases hnot

/-- R176: every command keeps the values of a part in reset. -/
theorem Effect.resetLaw {s t : State} {c : Instr} (h : Effect s c t) (hs : ResetLaw s) : ResetLaw t := by
  cases hr : s.inReset with
  | true =>
    obtain rfl | htrans | rfl | ⟨hb, pen, rfl⟩ := h.cases_inReset hr
    · exact hs
    · exact resetLaw_transacts htrans hs
    · exact resetLaw_deviceReset s
    · exact nofun
  | false =>
    cases h with
    | reset => exact resetLaw_deviceReset s
    | release hb pen _ hr' => cases hr.symm.trans hr'
    | stands => exact fun hr' => absurd (hr.symm.trans hr') nofun
    | request _ _ ht => exact fun hr' => absurd (hr.symm.trans (ht.frame.1.symm.trans hr')) nofun
    | quiet _ hq => exact fun hr' => absurd (hr.symm.trans (hq.frame.1.symm.trans hr')) nofun
    | @event u scan _ _ hu =>
      have hsame := ((framed_change s hu).trans (framed_settle u scan)).inReset
      exact fun hr' => absurd (hr.symm.trans (hsame.symm.trans hr')) nofun

/-- R132: no period counts in reset. -/
theorem resetLaw_oscillate {s : State} (hs : ResetLaw s) : ResetLaw s.oscillate := by
  cases hr : s.inReset with
  | true => rwa [State.oscillate, if_pos hr]
  | false =>
    intro hr'
    rw [State.oscillate, hr, if_neg Bool.false_ne_true] at hr'
    cases hr.symm.trans hr'

/-- R107, R115, R144, R162, R167: every command keeps the settings of a part in reset. -/
theorem Effect.resetSettingsLaw {s t : State} {c : Instr} (h : Effect s c t) (hs : ResetSettingsLaw s) :
    ResetSettingsLaw t := by
  have hdevice : ResetSettingsLaw s.deviceReset := fun _ =>
    ⟨fun p => by rw [State.port_deviceReset]; cases p <;> exact ⟨rfl, rfl, rfl, rfl, rfl, rfl, rfl, rfl⟩,
      fun n => by simp [State.deviceReset, State.input, HbInput.reset]⟩
  cases hr : s.inReset with
  | true =>
    obtain ⟨hport, hinput⟩ := hs hr
    obtain rfl | htrans | rfl | ⟨hb, pen, rfl⟩ := h.cases_inReset hr
    · exact hs
    · refine fun _ => ⟨fun p => ?_, fun n => ?_⟩
      · have := hport p
        cases htrans <;> rw [State.port_updPort] <;> split <;> exact this
      · cases htrans <;> exact hinput n
    · exact hdevice
    · exact nofun
  | false =>
    cases h with
    | reset => exact hdevice
    | release hb pen _ hr' => cases hr.symm.trans hr'
    | stands => exact fun hr' => absurd (hr.symm.trans hr') nofun
    | request _ _ ht => exact fun hr' => absurd (hr.symm.trans (ht.frame.1.symm.trans hr')) nofun
    | quiet _ hq => exact fun hr' => absurd (hr.symm.trans (hq.frame.1.symm.trans hr')) nofun
    | @event u scan _ _ hu =>
      have hsame := ((framed_change s hu).trans (framed_settle u scan)).inReset
      exact fun hr' => absurd (hr.symm.trans (hsame.symm.trans hr')) nofun

theorem resetSettingsLaw_oscillate {s : State} (hs : ResetSettingsLaw s) : ResetSettingsLaw s.oscillate := by
  cases hr : s.inReset with
  | true => rwa [State.oscillate, if_pos hr]
  | false =>
    intro hr'
    rw [State.oscillate, hr, if_neg Bool.false_ne_true] at hr'
    cases hr.symm.trans hr'

/-! ## The attention output (R141) -/

/-- ATTN_x is a matter of the port's attachment, mask, mode, CLOCK flag and gap, and of the slots. -/
theorem State.attnLevel_congr {s t : State} {p : Port} (hslot : ∀ i, t.slot i = s.slot i)
    (hattached : t.attached p = s.attached p) (hclock : (t.port p).clockFlag = (s.port p).clockFlag)
    (hmaskClock : (t.port p).maskClock = (s.port p).maskClock) (hmask : (t.port p).mask = (s.port p).mask)
    (hmode : (t.port p).mode = (s.port p).mode) (hgap : (t.port p).gap.isNone = (s.port p).gap.isNone) :
    t.attnLevel p = s.attnLevel p := by
  simp only [State.attnLevel, State.unmaskedPending, hslot, hattached, hclock, hmaskClock, hmask, hmode, hgap]

/-- R141: the attention units compute every ATTN_x from the state that the event left. -/
theorem attentionLaw_attend (t : State) (acked : Option Port) : AttentionLaw (s.attend acked t) := fun p => by
  unfold State.attend
  simp only
  rw [State.attnLevel_congr (s := t.mapPorts fun p x => if s.startsGap t acked p then { x with gap := some 0 } else x)
    (State.slot_mapPorts _ _)]
  all_goals simp only [State.port_mapPorts, State.attached, State.inReset_mapPorts]

/-- A change of the ports that leaves all this and ATTN_x keeps R141. -/
theorem attentionLaw_mapPorts {s : State} {f : Port → PortState → PortState}
    (hf : ∀ p x, (f p x).pen = x.pen ∧ (f p x).cmdDetach = x.cmdDetach ∧ (f p x).clockFlag = x.clockFlag
      ∧ (f p x).maskClock = x.maskClock ∧ (f p x).mask = x.mask ∧ (f p x).mode = x.mode
      ∧ (f p x).gap.isNone = x.gap.isNone ∧ (f p x).attn = x.attn)
    (hs : AttentionLaw s) : AttentionLaw (s.mapPorts f) := fun p => by
  obtain ⟨hpen, hcmd, hclock, hmaskClock, hmask, hmode, hgap, hattn⟩ := hf p (s.port p)
  have hport : (s.mapPorts f).port p = f p (s.port p) := State.port_mapPorts s f p
  rw [State.attnLevel_congr (s := s) (State.slot_mapPorts _ _), hport, hattn]
  · exact hs p
  · exact State.attached_congr (State.inReset_mapPorts s f) (by rw [hport, hpen]) (by rw [hport, hcmd])
  all_goals rwa [hport]

theorem attentionLaw_updPort {s : State} {x : Port} {f : PortState → PortState}
    (hf : ∀ q, (f q).pen = q.pen ∧ (f q).cmdDetach = q.cmdDetach ∧ (f q).clockFlag = q.clockFlag
      ∧ (f q).maskClock = q.maskClock ∧ (f q).mask = q.mask ∧ (f q).mode = q.mode
      ∧ (f q).gap.isNone = q.gap.isNone ∧ (f q).attn = q.attn)
    (hs : AttentionLaw s) : AttentionLaw (s.updPort x f) :=
  attentionLaw_mapPorts (fun p q => by split <;> [exact hf q; exact ⟨rfl, rfl, rfl, rfl, rfl, rfl, rfl, rfl⟩]) hs

/-- The table and the ports stand, and so does the reset: then so does R141. -/
theorem attentionLaw_of_ports {s t : State} (hslot : ∀ i, t.slot i = s.slot i) (hport : ∀ p, t.port p = s.port p)
    (hreset : t.inReset = s.inReset) (hs : AttentionLaw s) : AttentionLaw t := fun p => by
  rw [State.attnLevel_congr hslot (State.attached_congr hreset (by rw [hport]) (by rw [hport])) (by rw [hport])
    (by rw [hport]) (by rw [hport]) (by rw [hport]) (by rw [hport]), hport]
  exact hs p

theorem attentionLaw_respond {s : State} (hs : AttentionLaw s) (p : Port) (c : Command) (a : Answer) :
    AttentionLaw (s.respond p c a) :=
  attentionLaw_of_ports (s := s.updPort p fun x => { x with buffer := .ready (Response.make c.code a) })
    (State.slot_setPointer _ p) (State.port_setPointer _ p) (State.inReset_setPointer _ p)
    (attentionLaw_updPort (by exact fun _ => ⟨rfl, rfl, rfl, rfl, rfl, rfl, rfl, rfl⟩) hs)

theorem attentionLaw_quiet {s t : State} (h : Quiet s t) (hs : AttentionLaw s) : AttentionLaw t := by
  cases h with
  | selnFall | ignoredRelease | release =>
    exact attentionLaw_updPort (by exact fun _ => ⟨rfl, rfl, rfl, rfl, rfl, rfl, rfl, rfl⟩) hs
  | tick hb =>
    exact attentionLaw_of_ports (s.slot_tickTaken hb) (s.port_tickTaken hb) (s.inReset_tickTaken hb) hs
  | @edgeTick d hb =>
    exact attentionLaw_of_ports (s := s) ((s.setClockBlock d).slot_tickTaken hb) ((s.setClockBlock d).port_tickTaken hb)
      ((s.setClockBlock d).inReset_tickTaken hb) hs
  | clock => exact attentionLaw_of_ports (s := s) (fun _ => rfl) (fun _ => rfl) rfl hs
  | clockPosted | gapEnd => exact attentionLaw_attend s _ none

/-- R141: every command leaves every ATTN_x as R141 gives it. -/
theorem Effect.attentionLaw {s t : State} {c : Instr} (h : Effect s c t) (hs : AttentionLaw s) (hreset : ResetLaw s) :
    AttentionLaw t := by
  cases h with
  | stands => exact hs
  | @request p r _ _ _ ht =>
    obtain ⟨u, scan, acked, a, -, -, rfl⟩ := ht
    exact attentionLaw_respond (attentionLaw_attend s (u.settle scan).1 acked) p r.command a
  | event => exact attentionLaw_attend s _ none
  | quiet _ hq => exact attentionLaw_quiet hq hs
  | reset =>
    intro p
    rw [State.attnLevel, State.attached_of_inReset rfl, State.port_deviceReset]
    rfl
  | release hb pen _ hr =>
    obtain ⟨hslot, -, -, -, -, hport⟩ := hreset hr
    intro p
    obtain ⟨hattn, -, hflag, -, -⟩ := hport p
    have hfree : (s.resetReleased hb pen).TableFree := fun i => (congrArg Slot.lease (hslot i) :)
    rw [State.attnLevel, State.unmaskedPending_of_tableFree hfree, State.port_resetReleased, hattn]
    · simp
    · rw [State.port_resetReleased]
      exact hflag

theorem attentionLaw_oscillate {s : State} (hs : AttentionLaw s) : AttentionLaw s.oscillate := by
  unfold State.oscillate
  split
  · exact hs
  · refine attentionLaw_mapPorts (fun p x => ⟨rfl, rfl, rfl, rfl, rfl, rfl, ?_, rfl⟩)
      (attentionLaw_of_ports (s := s) (fun _ => rfl) (fun _ => rfl) rfl hs)
    exact Option.isNone_map

end Sys2Proof.Machine

open Sys2Proof Sys2Proof.Machine

/-- Settles O2: every command has an effect, and the effects keep the queue and, but for the two reset rows, the
reset. -/
theorem everyCommandIsTaken : Obligations.EveryCommandIsTaken := fun c s => by
  obtain ⟨t, ht, he⟩ := takes_exec s c
  refine ⟨t, ht, he.pending_eq, fun hs htr => ?_, fun hs htr => ?_⟩
  · obtain hsame | ⟨hc, -⟩ | ⟨-, hfalse⟩ := he.inReset_cases
    · cases htr.symm.trans (hsame.trans hs)
    · exact hc
    · cases htr.symm.trans hfalse
  · obtain hsame | ⟨-, htrue⟩ | ⟨hc, -⟩ := he.inReset_cases
    · cases htr.symm.trans (hsame.trans hs)
    · cases htr.symm.trans htrue
    · exact hc

/-- Settles O10: each event ends with the attention units, and what runs in reset moves transactions alone. -/
theorem attentionLawKept : Obligations.AttentionLawKept := by
  refine ⟨fun s t ha hr h => ?_, fun s t hs h => ?_⟩
  · exact law_of_step (P := fun s => AttentionLaw s ∧ ResetLaw s) (fun s q k hs => hs)
      (fun he hs => ⟨he.attentionLaw hs.1 hs.2, he.resetLaw hs.2⟩)
      (fun s _ hs => ⟨attentionLaw_oscillate hs.1, resetLaw_oscillate hs.2⟩) ⟨ha, hr⟩ h
  · exact law_of_step (P := fun s => ResetSettingsLaw s) (fun s q k hs => hs) (fun he hs => he.resetSettingsLaw hs)
      (fun s _ hs => resetSettingsLaw_oscillate hs) hs h
end

section
/-! SUPPORT. Detached ports and the privilege of port A under every command (R151, R161, R167 to R171). -/

namespace Sys2Proof.Machine

variable (s : State)

/-! ## The requests that a port may send (R151, R161) -/

section Privilege

variable {x : Port} {code : Byte} {args rest : List Byte} {r : Request}

theorem supervisor_of_checkCommand (h : checkCommand x code args = .accepted r) :
    r.command.supervisor = false ∨ x = .A := by
  unfold checkCommand at h
  split at h
  · cases h
  split at h
  · cases h
  rename_i c _ _ r' hparse
  split at h
  · cases h
  · rename_i hmay
    cases h
    rw [(Request.of_parse_eq_some hparse).1]
    cases hsup : c.supervisor
    · exact .inl rfl
    · exact .inr (by simpa [hsup] using hmay)

/-- R151, check 5: what the receiver accepts, the port may send. -/
theorem supervisor_of_receive (h : receive x code rest = .accepted r) : r.command.supervisor = false ∨ x = .A := by
  unfold receive at h
  split at h
  · cases h
  split at h
  · cases h
  split at h
  · cases h
  simp only at h
  split at h
  · exact supervisor_of_checkCommand h
  · cases h

theorem supervisor_of_releasedBuffer {copy now : Buffer} {bytes : List Byte}
    (h : (releasedBuffer x copy now bytes).request = some r) :
    now.request = some r ∨ r.command.supervisor = false ∨ x = .A := by
  unfold releasedBuffer at h
  split at h
  · exact .inl h
  split at h
  · exact .inl h
  split at h
  · exact .inl h
  all_goals
    unfold receivedBuffer at h
    split at h
    · cases h
    · rename_i hreceive
      cases h
      exact .inr (supervisor_of_receive hreceive)

end Privilege

/-- R151, R161: what an event leaves pending was pending, and it sets no command-detach flag of port A. -/
theorem privilegeLaw_change {u : State} {asker : Option Port} {scan : Bool} (h : Change s asker u scan)
    (hs : PrivilegeLaw s) : PrivilegeLaw u := by
  obtain ⟨hsup, hcmd⟩ := hs
  refine ⟨fun p hp r hr => ?_, ?_⟩
  · have htouch := port_change s h p
    generalize u.port p = x at htouch hr
    cases htouch with
    | detached | cleared => cases hr
    | _ => exact hsup p hp r hr
  · have htouch := port_change s h .A
    generalize u.port .A = x at htouch
    cases htouch with
    | attached pen cmd _ hA | detached pen cmd _ _ hA =>
      have hcmd' : cmd ≠ true := fun hc => absurd (hcmd.symm.trans (hA rfl hc)) nofun
      exact Bool.eq_false_iff.2 hcmd'
    | _ => exact hcmd

/-- The buffers' requests and port A's command-detach flag stand, or are no more: then so does the privilege. -/
theorem privilegeLaw_of_ports {s t : State}
    (hrequest : ∀ p, (t.port p).buffer.request = none ∨ (t.port p).buffer = (s.port p).buffer)
    (hcmd : (t.port .A).cmdDetach = (s.port .A).cmdDetach) (hs : PrivilegeLaw s) : PrivilegeLaw t := by
  refine ⟨fun p hp r hr => ?_, hcmd.trans hs.2⟩
  obtain hnone | hsame := hrequest p
  · rw [hnone] at hr
    cases hr
  · rw [hsame] at hr
    exact hs.1 p hp r hr

/-- The attention units leave every port's buffer, transaction and attachment. -/
theorem State.port_attend_keeps {α : Type} (g : PortState → α)
    (hg : ∀ (x : PortState) (gap : Option Nat) (attn : Bool), g { x with gap := gap, attn := attn } = g x) (t : State)
    (acked : Option Port) (p : Port) : g ((s.attend acked t).port p) = g (t.port p) := by
  rw [State.port_attend]
  exact hg _ _ _

theorem privilegeLaw_attend {t : State} (acked : Option Port) (ht : PrivilegeLaw t) :
    PrivilegeLaw (s.attend acked t) :=
  privilegeLaw_of_ports (fun p => .inr (s.port_attend_keeps PortState.buffer (fun _ _ _ => rfl) t acked p))
    (s.port_attend_keeps PortState.cmdDetach (fun _ _ _ => rfl) t acked .A) ht

theorem privilegeLaw_settle {u : State} (scan : Bool) (hu : PrivilegeLaw u) : PrivilegeLaw (u.settle scan).1 :=
  privilegeLaw_of_ports (fun p => .inr (by rw [State.port_settle])) (by rw [State.port_settle]) hu

theorem privilegeLaw_postClock (hs : PrivilegeLaw s) : PrivilegeLaw s.postClock :=
  privilegeLaw_of_ports (fun p => .inr (by rw [State.port_postClock]; split <;> rfl))
    (by rw [State.port_postClock]; split <;> rfl) hs

theorem privilegeLaw_quiet {s t : State} (h : Quiet s t) (hs : PrivilegeLaw s) : PrivilegeLaw t := by
  have updPort {x : Port} {f : PortState → PortState} (hf : ∀ q, (f q).buffer = q.buffer ∧ (f q).cmdDetach = q.cmdDetach) :
      PrivilegeLaw (s.updPort x f) := by
    refine privilegeLaw_of_ports (fun p => .inr ?_) ?_ hs <;> rw [State.port_updPort] <;> split
    · exact (hf _).1
    · rfl
    · exact (hf _).2
    · rfl
  have ports {t : State} (ht : ∀ p, t.port p = s.port p) : PrivilegeLaw t :=
    privilegeLaw_of_ports (fun p => .inr (by rw [ht])) (by rw [ht]) hs
  cases h with
  | selnFall | ignoredRelease => exact updPort (by exact fun _ => ⟨rfl, rfl⟩)
  | @release x copy mosi =>
    refine ⟨fun p hp r hr => ?_, ?_⟩
    · rw [State.port_updPort] at hr
      split at hr
      · rename_i hx
        obtain hnow | hmay | hA := supervisor_of_releasedBuffer hr
        · exact hs.1 p hp r hnow
        · exact hmay
        · exact absurd (hx.trans hA) hp
      · exact hs.1 p hp r hr
    · rw [State.port_updPort]
      split <;> exact hs.2
  | tick hb => exact ports (s.port_tickTaken hb)
  | @edgeTick d hb => exact ports ((s.setClockBlock d).port_tickTaken hb)
  | clock => exact ports fun _ => rfl
  | clockPosted => exact privilegeLaw_attend s none (privilegeLaw_postClock _ (ports fun _ => rfl))
  | gapEnd => exact privilegeLaw_attend s none (updPort (by exact fun _ => ⟨rfl, rfl⟩))

theorem privilegeLaw_deviceReset : PrivilegeLaw s.deviceReset := by
  refine ⟨fun p _ r hr => ?_, ?_⟩
  · rw [State.port_deviceReset] at hr
    cases hr
  · rw [State.port_deviceReset]
    rfl

theorem Effect.privilegeLaw {s t : State} {c : Instr} (h : Effect s c t) (hs : PrivilegeLaw s) : PrivilegeLaw t := by
  cases h with
  | stands => exact hs
  | @request p r _ _ _ ht =>
    obtain ⟨u, scan, acked, a, hu, -, rfl⟩ := ht
    refine privilegeLaw_of_ports (fun q => ?_) ?_
      (privilegeLaw_attend s acked (privilegeLaw_settle scan (privilegeLaw_change s hu hs)))
    · rw [State.port_respond]
      split
      · exact .inl rfl
      · exact .inr rfl
    · rw [State.port_respond]
      split <;> rfl
  | @event u scan _ _ hu => exact privilegeLaw_attend s none (privilegeLaw_settle scan (privilegeLaw_change s hu hs))
  | quiet _ hq => exact privilegeLaw_quiet hq hs
  | reset => exact privilegeLaw_deviceReset s
  | release hb pen =>
    exact privilegeLaw_of_ports (fun p => .inr (by rw [State.port_resetReleased]))
      (by rw [State.port_resetReleased]) hs

theorem privilegeLaw_oscillate {s : State} (hs : PrivilegeLaw s) : PrivilegeLaw s.oscillate := by
  unfold State.oscillate
  split
  · exact hs
  · exact privilegeLaw_of_ports (s := s) (fun p => .inr (by rw [State.port_mapPorts]; rfl))
      (by rw [State.port_mapPorts]; rfl) hs

/-! ## Detached ports (R168 to R171) -/

/-- A port that asks for a request is not the one that its event detaches (R151, R168). -/
theorem attached_asker {u : State} {asker : Option Port} {scan : Bool} (h : Change s asker u scan)
    (hpriv : PrivilegeLaw s) {p : Port} (hp : asker = some p) (hs : s.attached p = true) : u.attached p = true := by
  have hreset := (framed_change s h).inReset
  have htouch := port_change s h p
  have same (hpen : (u.port p).pen = (s.port p).pen) (hcmd : (u.port p).cmdDetach = (s.port p).cmdDetach) :
      u.attached p = true := (State.attached_congr hreset hpen hcmd).trans hs
  generalize u.port p = x at htouch same
  cases htouch with
  | attached _ _ h => exact h hs
  | detached _ _ _ _ _ hasker =>
    obtain hnone | ⟨hA, q, port, hq, hbuffer⟩ := hasker
    · cases hp.symm.trans hnone
    · cases hp.symm.trans hq
      cases hpriv.1 p hA (.detach port) (by rw [hbuffer]; rfl)
  | _ => exact same rfl rfl

/-- R171: an event leaves a detached port with nothing. -/
theorem detachedLaw_change {u : State} {asker : Option Port} {scan : Bool} (h : Change s asker u scan)
    (hasker : ∀ p, asker = some p → s.attached p = true) (hs : DetachedLaw s) : DetachedLaw u := fun p hp => by
  have hreset := (framed_change s h).inReset
  have htouch := port_change s h p
  have same (hpen : (u.port p).pen = (s.port p).pen) (hcmd : (u.port p).cmdDetach = (s.port p).cmdDetach) :
      s.attached p = false := (State.attached_congr hreset hpen hcmd).symm.trans hp
  have before (hbefore : s.attached p = false) : u.slotUse p = 0 ∧ (s.port p).buffer = .empty
      ∧ (s.port p).clockFlag = false ∧ (s.port p).gap = none ∧ (s.port p).transaction.isShifting = false := by
    obtain ⟨huse, hport⟩ := hs p hbefore
    refine ⟨?_, hport⟩
    obtain hle | ⟨hp', -⟩ := slotUse_change s h p
    · omega
    · cases hbefore.symm.trans (hasker p hp')
  generalize u.port p = x at htouch same
  cases htouch with
  | attached _ _ hkept =>
    have hbefore : s.attached p = false := Bool.eq_false_iff.2 fun hatt => absurd (hp.symm.trans (hkept hatt)) nofun
    exact before hbefore
  | detached _ _ _ hslots => exact ⟨hslots, rfl, rfl, rfl, Transaction.isShifting_ignore _⟩
  | clockPosted hposted => cases (same rfl rfl).symm.trans hposted
  | clockRead =>
    obtain ⟨huse, hbuffer, -, hgap, htrans⟩ := before (same rfl rfl)
    exact ⟨huse, hbuffer, rfl, hgap, htrans⟩
  | masked kinds m =>
    obtain ⟨huse, hbuffer, hflag, hgap, htrans⟩ := before (same rfl rfl)
    refine ⟨huse, hbuffer, hflag, ?_, htrans⟩
    cases m
    · rfl
    · exact hgap
  | cleared =>
    obtain ⟨huse, -, -, -, htrans⟩ := before (same rfl rfl)
    exact ⟨huse, rfl, rfl, rfl, htrans⟩
  | stands | configured => exact before (same rfl rfl)

/-- The ports that are detached stand as they stood: then they hold nothing still. -/
theorem detachedLaw_of_ports {s t : State} (hslots : ∀ p, t.slotUse p = s.slotUse p)
    (hattached : ∀ p, t.attached p = s.attached p)
    (hport : ∀ p, s.attached p = false → (t.port p).buffer = (s.port p).buffer
      ∧ (t.port p).clockFlag = (s.port p).clockFlag ∧ (t.port p).gap.isNone = (s.port p).gap.isNone
      ∧ (t.port p).transaction.isShifting = (s.port p).transaction.isShifting)
    (hs : DetachedLaw s) : DetachedLaw t := fun p hp => by
  rw [hattached] at hp
  obtain ⟨huse, hbuffer, hflag, hgap, htrans⟩ := hs p hp
  obtain ⟨hbuffer', hflag', hgap', htrans'⟩ := hport p hp
  refine ⟨(hslots p).trans huse, hbuffer'.trans hbuffer, hflag'.trans hflag, ?_, htrans'.trans htrans⟩
  rw [hgap] at hgap'
  exact Option.isNone_iff_eq_none.1 hgap'

theorem detachedLaw_settle {u : State} (scan : Bool) (hu : DetachedLaw u) : DetachedLaw (u.settle scan).1 :=
  detachedLaw_of_ports (sameTerms_settle u scan).slotUse (u.attached_settle scan)
    (fun p _ => by rw [State.port_settle]; exact ⟨rfl, rfl, rfl, rfl⟩) hu

theorem State.attached_attend (t : State) (acked : Option Port) (p : Port) :
    (s.attend acked t).attached p = t.attached p :=
  State.attached_congr (State.inReset_attend t s acked) (s.port_attend_keeps PortState.pen (fun _ _ _ => rfl) t acked p)
    (s.port_attend_keeps PortState.cmdDetach (fun _ _ _ => rfl) t acked p)

theorem State.slotUse_congr {s t : State} (h : ∀ i, t.slot i = s.slot i) (p : Port) : t.slotUse p = s.slotUse p := by
  simp only [State.slotUse, h]

/-- R142: no gap begins on a detached port. -/
theorem detachedLaw_attend {t : State} (acked : Option Port) (ht : DetachedLaw t) : DetachedLaw (s.attend acked t) :=
  detachedLaw_of_ports (State.slotUse_congr (State.slot_attend t s acked)) (s.attached_attend t acked) (fun p hp => by
    have hgap : s.startsGap t acked p = false := by simp [State.startsGap, hp]
    rw [State.port_attend, hgap]
    exact ⟨rfl, rfl, rfl, rfl⟩) ht

theorem detachedLaw_postClock (hs : DetachedLaw s) : DetachedLaw s.postClock :=
  detachedLaw_of_ports (State.slotUse_congr (State.slot_mapPorts s _)) (fun p =>
      State.attached_congr (State.inReset_mapPorts s _) (by rw [State.port_postClock]; split <;> rfl)
        (by rw [State.port_postClock]; split <;> rfl))
    (fun p hp => by
      rw [State.port_postClock, if_neg (by rw [hp]; exact Bool.false_ne_true)]
      exact ⟨rfl, rfl, rfl, rfl⟩) hs

theorem detachedLaw_updPort {s : State} {x : Port} {f : PortState → PortState}
    (hf : ∀ q, (f q).pen = q.pen ∧ (f q).cmdDetach = q.cmdDetach)
    (hx : s.attached x = false → (f (s.port x)).buffer = (s.port x).buffer
      ∧ (f (s.port x)).clockFlag = (s.port x).clockFlag ∧ (f (s.port x)).gap.isNone = (s.port x).gap.isNone
      ∧ (f (s.port x)).transaction.isShifting = (s.port x).transaction.isShifting)
    (hs : DetachedLaw s) : DetachedLaw (s.updPort x f) := by
  refine detachedLaw_of_ports (State.slotUse_congr (State.slot_updPort s x f)) (fun p => ?_) (fun p hp => ?_) hs
  · refine State.attached_congr (State.inReset_updPort s x f) ?_ ?_ <;> rw [State.port_updPort] <;> split
    · exact (hf _).1
    · rfl
    · exact (hf _).2
    · rfl
  · rw [State.port_updPort]
    split
    · rename_i hpx
      subst hpx
      exact hx hp
    · exact ⟨rfl, rfl, rfl, rfl⟩

theorem detachedLaw_quiet {s t : State} (h : Quiet s t) (hs : DetachedLaw s) : DetachedLaw t := by
  cases h with
  | selnFall x =>
    refine detachedLaw_updPort (by exact fun _ => ⟨rfl, rfl⟩) (fun hx => ?_) hs
    obtain ⟨-, -, -, -, hnot⟩ := hs x hx
    rw [hx, hnot]
    exact ⟨rfl, rfl, rfl, rfl⟩
  | ignoredRelease x ht =>
    refine detachedLaw_updPort (by exact fun _ => ⟨rfl, rfl⟩) (fun _ => ?_) hs
    rw [ht]
    exact ⟨rfl, rfl, rfl, rfl⟩
  | @release x copy mosi ht =>
    refine detachedLaw_updPort (by exact fun _ => ⟨rfl, rfl⟩) (fun hx => ?_) hs
    obtain ⟨-, -, -, -, hnot⟩ := hs x hx
    rw [ht] at hnot
    cases hnot
  | tick hb =>
    exact detachedLaw_of_ports (State.slotUse_congr (s.slot_tickTaken hb))
      (fun p => State.attached_congr (s.inReset_tickTaken hb) (by rw [State.port_tickTaken])
        (by rw [State.port_tickTaken]))
      (fun p _ => by rw [State.port_tickTaken]; exact ⟨rfl, rfl, rfl, rfl⟩) hs
  | @edgeTick d hb =>
    exact detachedLaw_of_ports (s := s.setClockBlock d) (State.slotUse_congr ((s.setClockBlock d).slot_tickTaken hb))
      (fun p => State.attached_congr ((s.setClockBlock d).inReset_tickTaken hb) (by rw [State.port_tickTaken])
        (by rw [State.port_tickTaken]))
      (fun p _ => by rw [State.port_tickTaken]; exact ⟨rfl, rfl, rfl, rfl⟩) hs
  | clock => exact hs
  | clockPosted => exact detachedLaw_attend s none (detachedLaw_postClock _ hs)
  | gapEnd x =>
    refine detachedLaw_attend s none (detachedLaw_updPort (by exact fun _ => ⟨rfl, rfl⟩) (fun hx => ?_) hs)
    obtain ⟨-, -, -, hgap, -⟩ := hs x hx
    rw [hgap]
    exact ⟨rfl, rfl, rfl, rfl⟩

/-- R171: every command leaves the detached ports with nothing. -/
theorem Effect.detachedLaw {s t : State} {c : Instr} (h : Effect s c t) (hs : DetachedLaw s) (hreset : ResetLaw s)
    (hpriv : PrivilegeLaw s) : DetachedLaw t := by
  cases h with
  | stands => exact hs
  | @request p r _ hn _ ht =>
    obtain ⟨u, scan, acked, a, hu, -, rfl⟩ := ht
    have hasker : ∀ q, some p = some q → s.attached q = true := fun q hq => by
      cases hq
      refine Bool.not_eq_false _ ▸ fun hp => ?_
      obtain ⟨-, hbuffer, -⟩ := hs p hp
      cases hbuffer.symm.trans (s.nextRequest_pending hn).2
    have hstays : ((u.settle scan).1).attached p = true :=
      (u.attached_settle scan p).trans (attached_asker s hu hpriv rfl (hasker p rfl))
    refine detachedLaw_of_ports (s := s.attend acked (u.settle scan).1)
      (State.slotUse_congr (State.slot_respond _ p r.command a)) (fun q => ?_) (fun q hq => ?_)
      (detachedLaw_attend s acked (detachedLaw_settle scan (detachedLaw_change s hu hasker hs)))
    · refine State.attached_congr (State.inReset_respond _ _ _ _) ?_ ?_ <;> rw [State.port_respond] <;> split <;> rfl
    · rw [State.port_respond, if_neg]
      · exact ⟨rfl, rfl, rfl, rfl⟩
      · rintro rfl
        rw [State.attached_attend] at hq
        cases hq.symm.trans hstays
  | @event u scan _ _ hu => exact detachedLaw_attend s none (detachedLaw_settle scan (detachedLaw_change s hu nofun hs))
  | quiet _ hq => exact detachedLaw_quiet hq hs
  | reset =>
    intro p _
    rw [State.port_deviceReset]
    exact ⟨State.slotUse_reset p, rfl, rfl, rfl, Transaction.isShifting_ignore _⟩
  | release hb pen _ hr =>
    obtain ⟨hslot, -, -, -, -, hport⟩ := hreset hr
    intro p _
    obtain ⟨-, hbuffer, hflag, hgap, htrans⟩ := hport p
    rw [State.port_resetReleased]
    refine ⟨?_, hbuffer, hflag, hgap, htrans⟩
    have hfree : ∀ i, (s.resetReleased hb pen).slot i = State.reset.slot i := fun i =>
      (hslot i).trans (State.slot_reset i).symm
    rw [State.slotUse_congr hfree, State.slotUse_reset]

theorem detachedLaw_oscillate {s : State} (hs : DetachedLaw s) : DetachedLaw s.oscillate := by
  unfold State.oscillate
  split
  · exact hs
  · refine detachedLaw_of_ports (s := s) (State.slotUse_congr fun _ => rfl) (fun p => ?_) (fun p _ => ?_) hs
    · exact State.attached_congr rfl (by rw [State.port_mapPorts]; rfl) (by rw [State.port_mapPorts]; rfl)
    · rw [State.port_mapPorts]
      exact ⟨rfl, rfl, Option.isNone_map, rfl⟩

end Sys2Proof.Machine

open Sys2Proof Sys2Proof.Machine

/-- Settles O11: a port that asks stays attached, since only port A can detach and never itself; and the receiver
checks the privilege of what becomes pending. -/
theorem detachedPortLawKept : Obligations.DetachedPortLawKept := fun s t hd hr hp h => by
  obtain ⟨hd', -, hp'⟩ := law_of_step (P := fun s => DetachedLaw s ∧ ResetLaw s ∧ PrivilegeLaw s)
    (fun s q k hs => hs)
    (fun he ⟨hd, hr, hp⟩ => ⟨he.detachedLaw hd hr hp, he.resetLaw hr, he.privilegeLaw hp⟩)
    (fun s _ ⟨hd, hr, hp⟩ => ⟨detachedLaw_oscillate hd, resetLaw_oscillate hr, privilegeLaw_oscillate hp⟩)
    ⟨hd, hr, hp⟩ h
  exact ⟨hd', hp'⟩
end

section
/-! SUPPORT. Deadlines and ranges, patterns, debounces and the clock block under every command (R2, R20, R92, R98,
R107, R108, chapter 7). -/

namespace Sys2Proof.Machine

variable (s : State)

/-! ## Deadlines and ranges (R2, R20) -/

theorem State.remaining_ahead {t : State} (h : t.clock.count = s.clock.count) (n : Ticks) :
    (s.remaining (t.ahead n)).toNat = n.toNat := by
  rw [State.remaining, State.ahead, h]
  bv_omega

theorem remaining_full (clock : Word) (n : Ticks) : (clock + n.setWidth 32 - clock).toNat = n.toNat := by
  bv_omega

/-- R20: the deadlines of a lease are near by the clock value alone. -/
theorem State.deadlinesNear_congr {s t : State} (h : t.clock.count = s.clock.count) (l : Lease) :
    t.deadlinesNear l = s.deadlinesNear l := by
  unfold State.deadlinesNear State.remaining
  rw [h]

theorem State.quarantineNear_congr {s t : State} (h : t.clock.count = s.clock.count) (x : Line) :
    t.quarantineNear x = s.quarantineNear x := by
  unfold State.quarantineNear State.remaining
  rw [h]

/-- A lease's deadlines are near, and its record is within its ranges. -/
def State.timely (s : State) (l : Lease) : Prop := s.deadlinesNear l = true ∧ l.inRange = true

theorem Lease.inRange_iff (l : Lease) : l.inRange = true ↔
    l.lines ≠ 0 ∧ Config.minTerm ≤ l.term.toNat ∧ l.waitLimit ≠ some 0 ∧ l.cap ≠ some 0
      ∧ ∀ c n, l.cap = some c → l.count = some n → n.toNat ≤ c.toNat := by
  unfold Lease.inRange
  cases l.cap <;> cases l.count <;> simp [and_assoc]

/-- R2: a record stays in range where its terms stand and its count, if it has one, is within the cap. -/
theorem Lease.inRange_of {l x : Lease} (hl : l.inRange = true) (hlines : x.lines = l.lines)
    (hterm : x.term = l.term ∨ Config.minTerm ≤ x.term.toNat) (hwait : x.waitLimit = l.waitLimit) (hcap : x.cap = l.cap)
    (hcount : ∀ n, x.count = some n → l.count = some n ∨ ∀ c, l.cap = some c → n.toNat ≤ c.toNat) :
    x.inRange = true := by
  obtain ⟨hset, hmin, hlimit, hcapne, hbound⟩ := l.inRange_iff.1 hl
  refine x.inRange_iff.2 ⟨by rwa [hlines], ?_, by rwa [hwait], by rwa [hcap], fun c n hc hn => ?_⟩
  · obtain hsame | hnew := hterm
    · rwa [hsame]
    · exact hnew
  · rw [hcap] at hc
    obtain hsame | hle := hcount n hn
    · exact hbound c n hc hsame
    · exact hle c hc

/-- R25: what passes the first check makes a record within its ranges. -/
theorem State.inRange_newLease {t : State} {p : Port} {a : AcquireArgs} {level : Fin 4} (ha : a.outOfRange = false) :
    (t.newLease p a level).inRange = true := by
  simp only [AcquireArgs.outOfRange, Bool.or_eq_false_iff, beq_eq_false_iff_ne, decide_eq_false_iff_not] at ha
  obtain ⟨⟨⟨⟨⟨⟨⟨hlines, hterm⟩, -⟩, -⟩, -⟩, hlimit⟩, hcap⟩, -⟩ := ha
  refine (Lease.inRange_iff _).2 ⟨hlines, Nat.le_of_not_lt hterm, hlimit, hcap, fun c n _ hn => ?_⟩
  cases hn

theorem State.timely_newLease {t : State} (h : t.clock.count = s.clock.count) {p : Port} {a : AcquireArgs}
    {level : Fin 4} (ha : a.outOfRange = false) : s.timely (t.newLease p a level) := by
  refine ⟨?_, State.inRange_newLease ha⟩
  simp only [State.deadlinesNear, State.newLease]
  cases hlimit : a.limit with
  | none => rfl
  | some w =>
    simp only [Option.map_some]
    rw [s.remaining_ahead h, decide_eq_true_eq]

theorem toNat_renewedCount_le {n c : Byte} (h : n.toNat < c.toNat) : (renewedCount n).toNat ≤ c.toNat := by
  unfold renewedCount
  split
  · bv_omega
  · bv_omega

/-- R20, R2: every event sets deadlines by its clock value, and keeps the ranges. -/
theorem timely_kept :
    KeptByEvents s.clock.count (fun d => (s.remaining d).toNat ≤ Config.maxMargin) s.timely where
  new h ha := s.timely_newLease h ha
  grant {l margin n} _ hl := by
    refine ⟨?_, Lease.inRange_of hl.2 rfl (.inl rfl) rfl rfl fun n hn => .inr fun c _ => ?_⟩
    · exact decide_eq_true (remaining_full _ _).le
    · obtain rfl : 0 = n := Option.some.inj hn
      exact Nat.zero_le _
  renew {l g newTerm margin} hphase hcap hterm hl := by
    have hphase' : ({ l with term := termAfter l newTerm }.renew s.clock.count margin).phase = .active
        { expiry := s.clock.count + (termAfter l newTerm).setWidth 32, count := renewedCount g.count,
          warned := warnsAtOnce margin (termAfter l newTerm) } := by
      simp only [Lease.renew, hphase]
    refine ⟨?_, Lease.inRange_of hl.2 ?_ ?_ ?_ ?_ fun n hn => .inr fun c hc => ?_⟩
    · have hterm' : ({ l with term := termAfter l newTerm }.renew s.clock.count margin).term = termAfter l newTerm := by
        simp only [Lease.renew, hphase]
      rw [State.deadlinesNear, hphase', hterm']
      exact decide_eq_true (remaining_full _ _).le
    · simp only [Lease.renew, hphase]
    · simp only [Lease.renew, hphase, termAfter]
      simp only [newTermInRange, decide_eq_true_eq] at hterm
      split
      · exact .inl rfl
      · exact .inr (hterm.resolve_left ‹_›)
    · simp only [Lease.renew, hphase]
    · simp only [Lease.renew, hphase]
    · rw [Lease.count, hphase'] at hn
      obtain rfl := Option.some.inj hn
      rw [Lease.belowCap, hc] at hcap
      exact toNat_renewedCount_le (of_decide_eq_true hcap)
  clear hl := hl
  warn {l} hl := by
    cases hp : l.phase <;>
      simpa [State.timely, State.deadlinesNear, Lease.warn, Lease.inRange, Lease.count, hp] using hl
  finish {l c} hl := by
    have hbare := l.bare_finish c
    refine ⟨by cases hp : l.phase <;> simp [State.deadlinesNear, Lease.finish, hp],
      Lease.inRange_of hl.2 (congrArg Lease.lines hbare :) (.inl (congrArg Lease.term hbare :))
        (congrArg Lease.waitLimit hbare :) (congrArg Lease.cap hbare :) fun n hn => ?_⟩
    cases hp : l.phase with
    | waiting =>
      obtain rfl : 0 = n := by simpa [Lease.finish, Lease.count, hp] using hn
      exact .inr fun c _ => Nat.zero_le _
    | _ => exact .inl (by simpa [Lease.finish, Lease.count, hp] using hn)
  start {l d} hd hl := by
    cases hp : l.phase
    case active h =>
      simp [State.timely, State.deadlinesNear, Lease.startYield, Lease.inRange, Lease.count, hp] at hl ⊢
      exact ⟨⟨hl.1, hd⟩, hl.2⟩
    all_goals simpa [State.timely, Lease.startYield, hp] using hl
  withdraw {l} hl := by
    cases hp : l.phase
    case yielding h d =>
      simp [State.timely, State.deadlinesNear, Lease.withdraw, Lease.inRange, Lease.count, hp] at hl ⊢
      exact ⟨hl.1.1, hl.2⟩
    all_goals simpa [State.timely, Lease.withdraw, hp] using hl

/-- R92: quarantines are set by the clock value of the event. -/
theorem quarantineNear_kept : LineKeptByEvents s.clock.count fun x => s.quarantineNear x = true where
  reset := rfl
  bind _ := rfl
  rest _ := rfl
  fault {x} _ := by
    unfold Line.toFault
    split
    · rfl
    · refine decide_eq_true ?_
      rw [State.remaining]
      bv_omega
  order {_ _ _ _ d x} _ hx := by
    unfold Line.order
    split
    · rfl
    all_goals exact hx
  configure {_ _ _ _ x} hx := by
    unfold Line.configure
    simp only
    split <;> exact hx

/-- A deadline that the clock does not stand at stays as near on the next tick. -/
theorem remaining_next {clock d : Word} {n : Nat} (hd : d ≠ clock) (h : (d - clock).toNat ≤ n) :
    (d - (clock + 1)).toNat ≤ n := by
  bv_omega

/-- R121: a tick that is made finds no deadline event open. -/
theorem State.not_due_of_tickReady {s : State} (h : s.tickReady = true) :
    (∀ i, s.expiryDue i = false ∧ s.waitDue i = false ∧ s.yieldDue i = false) ∧ ∀ m, s.quarantineDue m = false := by
  simp only [State.tickReady, State.eventsOpen, Bool.and_eq_true, Bool.not_eq_true', Bool.or_eq_false_iff,
    List.any_eq_false, Bool.not_eq_true] at h
  obtain ⟨-, hslots, hlines⟩ := h
  refine ⟨fun i => ?_, fun m => hlines m (mem_allLines m)⟩
  have hi := hslots i (mem_allSlots i)
  exact ⟨hi.1.1.1, hi.1.1.2, hi.1.2⟩

/-- R20: a tick leaves no deadline behind. -/
theorem State.timely_tickTaken {s : State} (h : s.tickReady = true) (hb : BitVec 4) {i : Fin 16} {l : Lease}
    (hl : s.leaseAt i = some l) (hs : s.timely l) : (s.tickTaken hb).timely l := by
  obtain ⟨hnear, hrange⟩ := hs
  refine ⟨?_, hrange⟩
  obtain ⟨hexpiry, hwait, hyield⟩ := (State.not_due_of_tickReady h).1 i
  simp only [State.expiryDue, State.waitDue, State.yieldDue, hl] at hexpiry hwait hyield
  unfold State.deadlinesNear State.remaining at hnear ⊢
  rw [State.count_tickTaken s h hb]
  cases hp : l.phase with
  | waiting d =>
    cases d with
    | none => simpa [hp] using hnear
    | some d =>
      simp only [hp, Lease.waitDeadline] at hnear hwait ⊢
      split
      · simp_all only [decide_eq_true_eq]
        exact remaining_next (by simpa using hwait) hnear
      · simp_all
  | active g =>
    simp only [hp, Lease.holding, decide_eq_true_eq] at hnear hexpiry ⊢
    exact remaining_next (by simpa using hexpiry) hnear
  | yielding g d =>
    simp only [hp, Lease.holding, Lease.yieldDeadline, Bool.and_eq_true, decide_eq_true_eq] at hnear hexpiry hyield ⊢
    exact ⟨remaining_next (by simpa using hexpiry) hnear.1, remaining_next (by simpa using hyield) hnear.2⟩
  | ended => rfl

theorem State.quarantineNear_tickTaken {s : State} (h : s.tickReady = true) (hb : BitVec 4) {m : Fin 16}
    (hs : s.quarantineNear (s.line m) = true) : (s.tickTaken hb).quarantineNear ((s.tickTaken hb).line m) = true := by
  have hdue := (State.not_due_of_tickReady h).2 m
  rw [State.line_tickTaken]
  unfold State.quarantineNear State.remaining at hs ⊢
  unfold State.quarantineDue at hdue
  rw [State.count_tickTaken s h hb]
  unfold Line.tick
  cases hocc : (s.line m).occ with
  | free => simp [hocc]
  | bound i d => cases d <;> simp [hocc]
  | quarantine d =>
    simp only [hocc, decide_eq_true_eq] at hs hdue ⊢
    exact remaining_next (by simpa using hdue) hs

/-- R2, R20, R92, R121, R162: the deadlines lie ahead of the clock, and every record and setting is in its range. -/
def Timely (s : State) : Prop :=
  Leases s.timely s ∧ Lines (fun x => s.quarantineNear x = true) s
    ∧ ∀ p : Port, (s.port p).margin.toNat ≤ Config.maxMargin ∧ (s.port p).window.toNat ≤ Config.maxMargin

theorem timely_iff : Timely s ↔ DeadlineLaw s ∧ RangeLaw s :=
  ⟨fun ⟨hleases, hlines, hports⟩ => ⟨⟨fun i l hl => (hleases i l hl).1, hlines⟩,
      fun i l hl => (hleases i l hl).2, hports⟩,
    fun ⟨⟨hnear, hlines⟩, hrange, hports⟩ => ⟨fun i l hl => ⟨hnear i l hl, hrange i l hl⟩, hlines, hports⟩⟩

/-- The deadlines are near by the clock value alone. -/
theorem State.timely_congr {s t : State} (h : t.clock.count = s.clock.count) : t.timely = s.timely :=
  funext fun l => by rw [State.timely, State.timely, State.deadlinesNear_congr h]

theorem timely_alike {s t : State} (h : Alike s t) (hs : Timely s) : Timely t := by
  obtain ⟨hleases, hlines, hports⟩ := hs
  refine ⟨?_, fun m => ?_, fun p => ?_⟩
  · rw [State.timely_congr h.count]
    exact leases_of_slots h.table.1 hleases
  · change t.quarantineNear (t.line m) = true
    rw [State.quarantineNear_congr h.count, h.table.2.2]
    exact hlines m
  · rw [(h.settings p).2.1, (h.settings p).2.2]
    exact hports p

/-- R164: margins and windows stay in their range. -/
theorem settingsRange_change {u : State} {asker : Option Port} {scan : Bool} (h : Change s asker u scan)
    (hs : ∀ p : Port, (s.port p).margin.toNat ≤ Config.maxMargin ∧ (s.port p).window.toNat ≤ Config.maxMargin)
    (p : Port) : (u.port p).margin.toNat ≤ Config.maxMargin ∧ (u.port p).window.toNat ≤ Config.maxMargin := by
  obtain hsame | ⟨q, quota, ceiling, margin, window, -, hmargin, hwindow, hport⟩ := settings_change s h
  · rw [(hsame p).2.1, (hsame p).2.2]
    exact hs p
  · rw [hport]
    split
    · exact ⟨Setting.over_le (hs p).1 hmargin, Setting.over_le (hs p).2 hwindow⟩
    · exact hs p

theorem timely_event {u : State} {asker : Option Port} {scan : Bool} (h : Change s asker u scan) (hs : Timely s) :
    Timely (u.settle scan).1 := by
  obtain ⟨hleases, hlines, hports⟩ := hs
  have hu := (framed_change s h).count
  have hcount : (u.settle scan).1.clock.count = s.clock.count := (framed_settle u scan).count.trans hu
  have hsettings := settingsRange_change s h hports
  refine ⟨?_, fun m => ?_, fun p => ?_⟩
  · rw [State.timely_congr hcount]
    refine leases_settle (timely_kept s) scan hu (fun p => ?_) (leases_change (timely_kept s) h rfl hleases)
    rw [State.remaining_ahead s hu]
    exact (hsettings p).2
  · change (u.settle scan).1.quarantineNear ((u.settle scan).1.line m) = true
    rw [State.quarantineNear_congr hcount]
    exact lines_settle (quarantineNear_kept s) scan hu (lines_change (quarantineNear_kept s) h rfl hlines) m
  · rw [State.port_settle]
    exact hsettings p

theorem timely_tick {s : State} (h : s.tickReady = true) (hb : BitVec 4) (hs : Timely s) :
    Timely (s.tickTaken hb) := by
  obtain ⟨hleases, hlines, hports⟩ := hs
  refine ⟨fun i l hl => ?_, fun m => State.quarantineNear_tickTaken h hb (hlines m), fun p => ?_⟩
  · rw [State.leaseAt, State.slot_tickTaken] at hl
    exact State.timely_tickTaken h hb hl (hleases i l hl)
  · rw [State.port_tickTaken]
    exact hports p

end Sys2Proof.Machine

open Sys2Proof Sys2Proof.Machine

/-- Settles O15: events set deadlines from the clock value they find, and a tick waits until no deadline event is
open, so that each is as far ahead as it was, less one tick. -/
theorem deadlineLawKept : Obligations.DeadlineLawKept := fun s t hd hr h =>
  (timely_iff t).1 (settingsLaw_of_step (P := Timely) timely_alike (fun h hs => timely_event _ h hs)
    (fun h hs => timely_tick h _ hs) ((timely_iff _).2 ⟨lawsHoldAtReset.deadline, lawsHoldAtReset.range⟩)
    ((timely_iff s).2 ⟨hd, hr⟩) h)
end

section
/-! SUPPORT. Patterns and debounces under every command (R96 to R98, R107 to R111). -/

namespace Sys2Proof.Machine

variable (s : State)

/-! ## Patterns (R96, R98) -/

theorem State.pulseFits_congr {s t : State} (h : t.clock.count = s.clock.count) (p : Pulse) :
    t.pulseFits p = s.pulseFits p := by
  unfold State.pulseFits
  rw [h]

/-- A line runs no pattern, or one that fits. -/
def State.patternFits (s : State) (x : Line) : Prop := ∀ p ∈ x.pattern, s.pulseFits p = true

theorem State.patternFits_congr {s t : State} (h : t.clock.count = s.clock.count) (x : Line) :
    t.patternFits x = s.patternFits x := by
  simp only [State.patternFits, State.pulseFits_congr h]

theorem State.patternFits_of_none {x : Line} (h : x.pattern = none) : s.patternFits x := fun p hp => by
  rw [h] at hp
  cases hp

/-- R96: what a DRIVE orders fits. -/
theorem State.pulseFits_ordered {kind delay onTime period : Byte} {p : Pulse}
    (h : orderedDrive s.clock.count kind delay onTime period = some (.pulse p)) : s.pulseFits p = true := by
  unfold orderedDrive at h
  split at h
  · cases h
  · split at h
    · rename_i hrange
      obtain ⟨-, hon, hperiod, hlt⟩ := hrange
      cases h
      simpa [State.pulseFits, hperiod, hlt] using hon
    · cases h

theorem Line.pattern_of_occ {x y : Line} (h : y.occ = x.occ) : y.pattern = x.pattern := by
  rw [Line.pattern, Line.pattern, h]

theorem Line.pattern_toFault (clock : Word) (x : Line) : (x.toFault clock).pattern = none := by
  unfold Line.toFault
  split <;> rfl

theorem Line.occ_configure (rest fault : Setting Drive) (qlen : Setting Byte) (access : Setting PortSet) (x : Line) :
    (x.configure rest fault qlen access).occ = x.occ := by
  cases hocc : x.occ <;> simp [Line.configure, hocc]

/-- R96, R98: every event leaves a line with a pattern that fits, or with none. -/
theorem patternFits_kept : LineKeptByEvents s.clock.count s.patternFits where
  reset := s.patternFits_of_none rfl
  bind _ := s.patternFits_of_none rfl
  rest _ := s.patternFits_of_none rfl
  fault _ := s.patternFits_of_none (Line.pattern_toFault _ _)
  order {_ _ _ _ d x} hd hx := by
    unfold Line.order
    split
    · cases d with
      | static d => exact s.patternFits_of_none rfl
      | pulse p =>
        intro q hq
        obtain rfl := Option.some.inj hq
        exact s.pulseFits_ordered hd
    all_goals exact hx
  configure {_ _ _ _ x} hx := by
    rw [State.patternFits, Line.pattern_of_occ (Line.occ_configure _ _ _ _ x)]
    exact hx

/-- R98: a tick advances a pattern with the clock. -/
theorem State.pulseFits_advance {s t : State} (h : t.clock.count = s.clock.count + 1) {p : Pulse}
    (hp : s.pulseFits p = true) : t.pulseFits p.advance = true := by
  simp only [State.pulseFits, Bool.and_eq_true] at hp ⊢
  obtain ⟨hrange, hcount⟩ := hp
  refine ⟨hrange, ?_⟩
  rw [h]
  simp only [Pulse.advance]
  cases hk : p.k with
  | none =>
    simp only [hk, beq_iff_eq] at hcount ⊢
    rw [hcount]
    simp
  | some k =>
    simp only [hk, beq_iff_eq] at hcount ⊢
    rw [BitVec.ofNat_add, hcount]
    bv_omega

theorem State.patternFits_tick {s t : State} (h : t.clock.count = s.clock.count + 1) {x : Line}
    (hx : s.patternFits x) : t.patternFits x.tick := by
  unfold Line.tick
  split
  · rename_i i p hocc
    intro q hq
    obtain rfl : p.advance = q := by simpa [Line.pattern] using hq
    exact State.pulseFits_advance h (hx p (by simp [Line.pattern, hocc]))
  all_goals exact t.patternFits_of_none (by simp [Line.pattern, *])

/-! ## Debounces (R107 to R111) -/

/-- R107, R108, R111: the debounce length is in its range, and the stable count below it, 0 where disabled. -/
def HbInput.debounces (x : HbInput) : Prop :=
  1 ≤ x.debounce ∧ x.debounce ≤ 15 ∧ x.stable < x.debounce ∧ (x.enabled = false → x.stable = 0)

theorem HbInput.debounces_sample (high : Bool) {x : HbInput} (h : x.debounces) : (x.sample high).debounces := by
  obtain ⟨hmin, hmax, hlt, hoff⟩ := h
  unfold HbInput.sample
  split
  · exact ⟨hmin, hmax, hlt, hoff⟩
  rename_i hon
  split
  · exact ⟨hmin, hmax, hlt, hoff⟩
  split
  · exact ⟨hmin, hmax, hmin, fun _ => rfl⟩
  split
  · exact ⟨hmin, hmax, hmin, fun _ => rfl⟩
  · rename_i hne
    refine ⟨hmin, hmax, ?_, fun hoff' => absurd ?_ hon⟩
    · simp only
      omega
    · simpa using hoff'

theorem HbInput.debounces_configure {enable : Setting Bool} {edge : Setting EdgeSel} {debounce : Setting Nat}
    (hd : ∀ n, debounce = .to n → 1 ≤ n ∧ n ≤ 15) {x : HbInput} (h : x.debounces) :
    (x.configure enable edge debounce).debounces := by
  obtain ⟨hmin, hmax, hlt, hoff⟩ := h
  have hlength : 1 ≤ debounce.over x.debounce ∧ debounce.over x.debounce ≤ 15 := by
    cases debounce with
    | keep => exact ⟨hmin, hmax⟩
    | undefined => exact ⟨hmin, hmax⟩
    | _ n => exact hd n rfl
  refine ⟨hlength.1, hlength.2, ?_, fun hdisabled => ?_⟩ <;> simp only [HbInput.configure] at * <;> split
  · exact hlength.1
  · rename_i hsame
    simp only [not_or, ne_eq, not_not] at hsame
    rwa [hsame.2]
  · rfl
  · rename_i hsame
    simp only [not_or, ne_eq, not_not] at hsame
    exact hoff (hsame.1.symm.trans hdisabled)

/-- R111, R113: SET_HEARTBEAT alone changes more of an input than its claims. -/
theorem input_change {u : State} {asker : Option Port} {scan : Bool} (h : Change s asker u scan) (n : Fin 4) :
    (∃ k, u.input n = { s.input n with claims := k })
      ∨ ∃ (enable : Setting Bool) (edge : Setting EdgeSel) (debounce : Setting Nat),
          (∀ m, debounce = .to m → 1 ≤ m ∧ m ≤ 15) ∧ u.input n = (s.input n).configure enable edge debounce := by
  have stands {t : State} (ht : t.input n = s.input n) : ∃ k, t.input n = { s.input n with claims := k } :=
    ⟨(s.input n).claims, ht⟩
  cases h with
  | stands => exact .inl (stands rfl)
  | grantNow => exact .inl (stands ((onlyTable_grantNow s _ _).input n))
  | placeWaiting => exact .inl (stands ((onlyTable_placeWaiting s _ _).input n))
  | freeLive | freeEnded => exact .inl (stands ((onlyTable_freeSlot s _).input n))
  | endLease => exact .inl (stands ((onlyTable_endLease s _ _).input n))
  | clearFlags => exact .inl (stands ((onlyTable_clearFlags s _ _).input n))
  | renew | warn => exact .inl (stands ((onlyTable_updLease s _ _).input n))
  | clearClock | setMask | attach => exact .inl (stands (s.input_updPort _ _ n))
  | order | setLine | rest => exact .inl (stands (s.input_mapLines _ n))
  | claim m =>
    rw [State.claimTaken, State.input_mapInputs, State.claimAll, State.input_mapSlots]
    split
    · exact .inl ⟨_, rfl⟩
    · exact .inl ⟨_, rfl⟩
  | resume => exact .inl (stands (State.input_mapPorts _ _ n))
  | setClock =>
    unfold State.setClockTo
    split
    · exact .inl (stands (State.input_mapPorts _ _ n))
    · exact .inl (stands (State.input_updClock _ _ n))
  | setHeartbeat inputs enable edge hd =>
    rw [State.input_mapInputs]
    split
    · exact .inr ⟨enable, edge, _, hd, rfl⟩
    · exact .inl ⟨_, rfl⟩
  | setPort q => exact .inl (stands ((onlyTable_warnOnMargin (s.updPort q _) q _).input n))
  | detach | pen =>
    refine .inl (stands ?_)
    unfold State.changeAttach
    simp only
    split
    · rw [State.detachPort, State.input_updPort]
      exact (onlyTable_dropLeases _ _).input n
    · rfl
  | softReset =>
    refine .inl (stands ?_)
    have := (s.aside_softResetChanges).2.1
    exact (congrArg (fun v : Vector HbInput 4 => v[n]) this :)

theorem HbInput.debounces_change {u : State} {asker : Option Port} {scan : Bool} (h : Change s asker u scan)
    {n : Fin 4} (hs : (s.input n).debounces) : (u.input n).debounces := by
  obtain ⟨k, hsame⟩ | ⟨enable, edge, debounce, hd, hset⟩ := input_change s h n
  · rw [hsame]
    exact hs
  · rw [hset]
    exact HbInput.debounces_configure hd hs

theorem debounces_quiet {s t : State} (h : Quiet s t) {n : Fin 4} (hs : (s.input n).debounces) :
    (t.input n).debounces := by
  have sampled {u : State} (hb : BitVec 4) (hu : u.input n = s.input n) : ((u.tickTaken hb).input n).debounces := by
    rw [State.input_tickTaken, hu]
    exact HbInput.debounces_sample (hb.getLsbD n.val) hs
  cases h with
  | tick hb => exact sampled hb rfl
  | @edgeTick d hb => exact sampled (u := s.setClockBlock d) hb rfl
  | _ => exact hs

/-- R107, R108: every command keeps the debounces. -/
theorem Effect.heartbeatLaw {s t : State} {c : Instr} (h : Effect s c t) (hs : HeartbeatLaw s) : HeartbeatLaw t := by
  intro n
  have hn : (s.input n).debounces := hs n
  cases h with
  | stands => exact hn
  | request _ _ ht =>
    obtain ⟨u, scan, acked, a, hu, -, rfl⟩ := ht
    rw [State.input_respond, State.input_attend, State.input_settle]
    exact HbInput.debounces_change s hu hn
  | event _ _ hu =>
    rw [State.engineEvent, State.input_attend, State.input_settle]
    exact HbInput.debounces_change s hu hn
  | quiet _ hq => exact debounces_quiet hq hn
  | reset =>
    have hinput : s.deviceReset.input n = { HbInput.reset with pin := (s.input n).pin } := by
      simp [State.deviceReset, State.input]
    rw [hinput]
    simp [HbInput.reset]
  | release hb pen =>
    rw [State.input_resetReleased]
    obtain ⟨hmin, hmax, -, -⟩ := hn
    exact ⟨hmin, hmax, hmin, fun _ => rfl⟩

theorem heartbeatLaw_oscillate {s : State} (hs : HeartbeatLaw s) : HeartbeatLaw s.oscillate := by
  unfold State.oscillate
  split
  · exact hs
  · exact hs

end Sys2Proof.Machine

open Sys2Proof Sys2Proof.Machine

/-- Settles O16: a DRIVE orders its pattern for the next tick, each tick advances it with the clock, and the stable
count returns to 0 as it would reach the debounce length or as that length changes. -/
theorem patternAndDebounceLawsKept : Obligations.PatternAndDebounceLawsKept := by
  refine ⟨fun s t hs h => ?patterns, fun s t hs h => ?debounces⟩
  case patterns =>
    refine settingsLaw_of_step (P := fun s => ∀ m, s.patternFits (s.line m)) (fun h hs m => ?congr)
      (fun {s asker u scan} h hs m => ?event) (fun {s hb} h hs m => ?tick) lawsHoldAtReset.pulse hs h
    case congr =>
      rw [State.patternFits_congr h.count, h.table.2.2]
      exact hs m
    case event =>
      have hcount := (framed_change s h).count
      rw [State.patternFits_congr ((framed_settle u scan).count.trans hcount)]
      exact lines_settle (patternFits_kept s) scan hcount (lines_change (patternFits_kept s) h rfl hs) m
    case tick =>
      rw [State.line_tickTaken]
      exact State.patternFits_tick (State.count_tickTaken s h hb) (hs m)
  case debounces =>
    exact law_of_step (P := fun s => HeartbeatLaw s) (fun s q k hs => hs) (fun he hs => he.heartbeatLaw hs)
      (fun s _ hs => heartbeatLaw_oscillate hs) hs h
end

section
/-! SUPPORT. The clock block under every command (chapter 7). -/

namespace Sys2Proof.Machine

variable (s : State)

/-- The counts of the clock block are in their ranges and agree with the clock state (R117, R122 to R124, R126). -/
structure Clock.Sound (c : Clock) : Prop where
  silence : c.silence ≤ Config.silenceLimit
  correction : c.correction < Config.correctionLimit
  trim : c.trim.natAbs ≤ 255
  qual : ∀ n ∈ c.qual, n ≤ Config.lastQualification ∧ (c.state = .start ∨ c.state = .fallback)
  present : c.state = .reference ∨ c.state = .ready → c.present = true
  resume : c.state = .ready → c.resume = .manual

theorem clockLaw_iff : ClockLaw s ↔ s.clock.Sound ∧ (s.inReset = false → s.clock.tickFits = true) :=
  ⟨fun ⟨hsilence, hcorrection, htrim, hqual, hpresent, hresume, hfits⟩ =>
      ⟨⟨hsilence, hcorrection, htrim, hqual, hpresent, hresume⟩, hfits⟩,
    fun ⟨h, hfits⟩ => ⟨h.silence, h.correction, h.trim, h.qual, h.present, h.resume, hfits⟩⟩

/-- The tick source in FALLBACK and READY (R125). -/
def Policy.source : Policy → TickSource
  | .continue => .local
  | .freeze => .none

/-- The tick that begins where the policy's source becomes the tick's (R119). -/
def Policy.tick : Policy → Option TickProgress
  | .continue => some TickProgress.local
  | .freeze => none

namespace Clock

variable {c : Clock}

/-! ## The tick in progress and its source (R116 to R119) -/

theorem tickFits_local (hs : c.source = .local) :
    c.tickFits = true ↔ ∃ k, c.tick = some k ∧ k.length = Config.localTickLength ∧ k.counted ≤ k.length := by
  unfold Clock.tickFits
  rw [hs]
  cases c.tick <;> simp

theorem tickFits_reference (hs : c.source = .reference) :
    c.tickFits = true ↔ ∃ k, c.tick = some k ∧ Config.refTickLength - 1 ≤ k.length
      ∧ k.length ≤ Config.refTickLength + 1 := by
  unfold Clock.tickFits
  rw [hs]
  cases c.tick <;> simp

theorem tickFits_none (hs : c.source = .none) : c.tickFits = true ↔ c.tick = none := by
  unfold Clock.tickFits
  rw [hs]
  simp

/-- The tick in progress fits by the source and the tick alone. -/
theorem tickFits_congr {d : Clock} (hsource : d.source = c.source) (htick : d.tick = c.tick) :
    d.tickFits = c.tickFits := by
  unfold Clock.tickFits
  rw [hsource, htick]

theorem source_of_waiting (h : c.state = .fallback ∨ c.state = .ready) : c.source = c.policy.source := by
  unfold Clock.source
  obtain h | h := h <;> rw [h] <;> cases c.policy <;> rfl

theorem source_reference (h : c.state = .reference) : c.source = .reference := by
  unfold Clock.source
  rw [h]

/-- R119: the tick that a change to the policy's source begins fits. -/
theorem tickFits_of_policy (hs : c.state = .fallback ∨ c.state = .ready)
    (htick : c.tick = c.policy.tick) : c.tickFits = true := by
  match hp : c.policy with
  | .continue =>
    rw [hp] at htick
    exact (tickFits_local ((source_of_waiting hs).trans (congrArg Policy.source hp))).2 ⟨_, htick, rfl, Nat.zero_le _⟩
  | .freeze =>
    rw [hp] at htick
    exact (tickFits_none ((source_of_waiting hs).trans (congrArg Policy.source hp))).2 htick

/-- R132: so is the clock block in reset. -/
theorem sound_reset : Clock.reset.Sound := ⟨by decide, by decide, by decide, nofun, by decide, nofun⟩

/-! ## The moves of the clock (R117, R122 to R126, R129) -/

theorem Sound.edgeSeen (h : c.Sound) : c.edgeSeen.Sound :=
  ⟨Nat.zero_le _, h.correction, h.trim, h.qual, fun _ => rfl, h.resume⟩

theorem correctionLimit_pos : 0 < Config.correctionLimit := by decide

theorem refTickLength_mid : Config.refTickLength - 1 ≤ Config.refTickLength
    ∧ Config.refTickLength ≤ Config.refTickLength + 1 := by decide

theorem Sound.enterReference (h : c.Sound) (hp : c.present = true) : c.enterReference.Sound :=
  ⟨h.silence, correctionLimit_pos, h.trim, nofun, fun _ => hp, nofun⟩

theorem tickFits_enterReference : c.enterReference.tickFits = true :=
  (tickFits_reference (source_reference rfl)).2 ⟨_, rfl, refTickLength_mid⟩

theorem Sound.lost (h : c.Sound) : c.lost.Sound := by
  unfold Clock.lost
  split
  case h_1 hs | h_2 hs =>
    exact ⟨le_rfl, h.correction, h.trim, nofun, fun hs' => by simp [hs] at hs', fun hs' => by simp [hs] at hs'⟩
  all_goals exact ⟨le_rfl, h.correction, h.trim, nofun, nofun, nofun⟩

theorem tickFits_lost (h : c.tickFits = true) : c.lost.tickFits = true := by
  unfold Clock.lost
  split
  case h_1 | h_2 => exact h
  case h_3 => exact tickFits_of_policy (.inl rfl) (by cases c.policy <;> rfl)
  case h_4 hs =>
    refine (tickFits_congr (c := c) ?_ ?_).trans h
    · rw [source_of_waiting (.inl rfl), source_of_waiting (.inr hs)]
    · rfl

/-- R122 to R126: the supervision of the reference keeps the clock block. -/
theorem Sound.move {d : Clock} {posts : Bool} (h : ClockMove c d posts) (hc : c.Sound) (hfits : c.tickFits = true) :
    d.Sound ∧ d.tickFits = true := by
  cases h with
  | silent => exact ⟨⟨le_rfl, hc.correction, hc.trim, hc.qual, hc.present, hc.resume⟩, hfits⟩
  | lost | lostPosted => exact ⟨hc.lost, tickFits_lost hfits⟩
  | seen => exact ⟨hc.edgeSeen, hfits⟩
  | edgeCounted hs hn =>
    refine ⟨⟨Nat.zero_le _, hc.correction, hc.trim, fun m hm => ?_, fun _ => rfl, hc.resume⟩, hfits⟩
    obtain rfl := Option.some.inj hm
    exact ⟨hn, hs⟩
  | toReference => exact ⟨hc.edgeSeen.enterReference rfl, tickFits_enterReference⟩
  | toReady hs hm =>
    refine ⟨⟨Nat.zero_le _, hc.correction, hc.trim, nofun, fun _ => rfl, fun _ => hm⟩, ?_⟩
    refine (tickFits_congr (c := c) ?_ ?_).trans hfits
    · rw [source_of_waiting (.inr rfl), source_of_waiting (.inl hs)]
      rfl
    · rfl
  | tickCounted hs =>
    refine ⟨⟨Nat.zero_le _, hc.correction, hc.trim, hc.qual, fun _ => rfl, hc.resume⟩, ?_⟩
    obtain ⟨k, hk, hrange⟩ := (tickFits_reference (source_reference hs)).1 hfits
    have htick : c.tick.map TickProgress.count = some k.count := by rw [hk, Option.map_some]
    exact (tickFits_reference (c := { c.edgeSeen with tick := c.tick.map TickProgress.count })
      (source_reference hs)).2 ⟨k.count, htick, hrange⟩

/-- R117: the correction sum stays below its limit, and the next tick is as long as it leaves it. -/
theorem correct_range (h : c.Sound) : c.correct.1 < Config.correctionLimit
    ∧ Config.refTickLength - 1 ≤ c.correct.2 ∧ c.correct.2 ≤ Config.refTickLength + 1 := by
  have hcorrection := h.correction
  have htrim := h.trim
  unfold Clock.correct
  simp only
  split
  · exact ⟨hcorrection, refTickLength_mid⟩
  split
  · refine ⟨?_, ?_⟩
    · simp only [Config.correctionLimit] at *
      omega
    · split
      · exact ⟨le_rfl, Nat.le_add_right_of_le (Nat.sub_le _ _)⟩
      · exact ⟨Nat.le_add_right_of_le (Nat.sub_le _ _), le_rfl⟩
  · rename_i hlt
    exact ⟨Nat.lt_of_not_le hlt, refTickLength_mid⟩

/-- R116, R117: so does a tick. -/
theorem Sound.tickMade (h : c.Sound) (hfits : c.tickFits = true) : c.tickMade.Sound ∧ c.tickMade.tickFits = true := by
  unfold Clock.tickMade
  split
  · rename_i hs
    obtain ⟨hsum, hlength⟩ := correct_range h
    have hstate : c.state = .reference := by
      unfold Clock.source at hs
      split at hs <;> try split at hs
      all_goals first | assumption | cases hs
    constructor
    · split
      · exact ⟨h.silence, hsum, h.trim, h.qual, h.present, h.resume⟩
      · exact ⟨h.edgeSeen.silence, hsum, h.trim, h.qual, fun _ => rfl, h.resume⟩
    · split
      all_goals
        refine (tickFits_reference ?_).2 ⟨{ counted := c.carried, length := c.correct.2 }, rfl, hlength⟩
        exact source_reference hstate
  · rename_i hs
    refine ⟨⟨h.silence, h.correction, h.trim, h.qual, h.present, h.resume⟩, ?_⟩
    exact (tickFits_local (c := { c with count := c.count + 1, tick := some TickProgress.local }) hs).2
      ⟨_, rfl, rfl, Nat.zero_le _⟩
  · exact ⟨h, hfits⟩

/-- R119, R126, R129: SET_CLOCK keeps it, where READY does not come to wait under AUTO. -/
theorem Sound.configure {policy : Policy} {resume : ResumeMode} {trim : Int} (h : c.Sound)
    (htrim : trim = c.trim ∨ trim.natAbs ≤ 255) (hresume : c.state = .ready → resume = .manual) :
    (c.configure policy resume trim).Sound := by
  refine ⟨h.silence, ?_, ?_, h.qual, h.present, hresume⟩
  · simp only [Clock.configure]
    split
    · exact h.correction
    · decide
  · obtain rfl | hle := htrim
    · exact h.trim
    · exact hle

theorem tickFits_configure {policy : Policy} (resume : ResumeMode) (trim : Int) (h : c.tickFits = true) :
    (c.configure policy resume trim).tickFits = true := by
  by_cases hp : policy = c.policy
  · exact (tickFits_congr (c := c) (by simp only [Clock.source, Clock.configure, hp])
      (by simp only [Clock.configure, if_pos hp])).trans h
  · cases hs : c.state with
    | start | reference =>
      exact (tickFits_congr (c := c) (by simp only [Clock.source, Clock.configure, hs])
        (by simp only [Clock.configure, if_neg hp, hs])).trans h
    | fallback | ready =>
      refine tickFits_of_policy (by simp [Clock.configure, hs]) ?_
      simp only [Clock.configure, if_neg hp, hs]
      cases policy <;> rfl

/-- R116, R118, R122: a period keeps it, while no tick is due. -/
theorem Sound.oscillate (h : c.Sound) (hfits : c.tickFits = true) (hdue : c.source = .local → c.tickDue = false) :
    c.oscillate.Sound ∧ c.oscillate.tickFits = true := by
  refine ⟨⟨Nat.min_le_right _ _, h.correction, h.trim, h.qual, h.present, h.resume⟩, ?_⟩
  have hsource : c.oscillate.source = c.source := rfl
  match hs : c.source with
  | .none | .reference =>
    rw [tickFits_congr hsource (by simp only [Clock.oscillate, hs])]
    exact hfits
  | .local =>
    obtain ⟨k, hk, hlength, hle⟩ := (tickFits_local hs).1 hfits
    have hlt : k.counted < k.length := by
      have := hdue hs
      simp only [Clock.tickDue, hk, decide_eq_false_iff_not] at this
      omega
    exact (tickFits_local (hsource.trans hs)).2 ⟨k.count, by simp only [Clock.oscillate, hs, hk]; rfl, hlength, hlt⟩

end Clock

/-! ## Every command -/

theorem clock_setClockTo (policy : Policy) (resume : ResumeMode) (trim : Int) :
    (s.setClockTo policy resume trim).clock =
      if s.clock.state = .ready ∧ s.clock.resume = .manual ∧ resume = .auto then
        (s.clock.configure policy resume trim).enterReference
      else s.clock.configure policy resume trim := by
  unfold State.setClockTo
  split
  · rw [State.clock_postClock, State.clock_updClock, State.clock_updClock]
  · rw [State.clock_updClock]

/-- R127, R129: RESUME and SET_CLOCK alone, of the requests and the events, reach the clock block. -/
theorem clock_change {u : State} {asker : Option Port} {scan : Bool} (h : Change s asker u scan) :
    u.clock = s.clock
      ∨ s.clock.state = .ready ∧ u.clock = s.clock.enterReference
      ∨ ∃ (policy : Policy) (resume : ResumeMode) (trim : Int), (trim = s.clock.trim ∨ trim.natAbs ≤ 255)
          ∧ u.clock = (s.setClockTo policy resume trim).clock := by
  cases h with
  | stands => exact .inl rfl
  | grantNow => exact .inl (onlyTable_grantNow s _ _).clock
  | placeWaiting => exact .inl (onlyTable_placeWaiting s _ _).clock
  | freeLive | freeEnded => exact .inl (s.clock_freeSlot _)
  | endLease => exact .inl (s.clock_endLease _ _)
  | clearFlags => exact .inl (onlyTable_clearFlags s _ _).clock
  | renew | warn => exact .inl (s.clock_updLease _ _)
  | clearClock | setMask | attach => exact .inl (s.clock_updPort _ _)
  | order | setLine | rest => exact .inl (s.clock_mapLines _)
  | claim n => exact .inl (s.clock_claimTaken n)
  | resume hready => exact .inr (.inl ⟨hready, State.clock_postClock _⟩)
  | @setClock policy resume trim htrim => exact .inr (.inr ⟨policy, resume, trim, htrim, rfl⟩)
  | setHeartbeat => exact .inl (s.clock_mapInputs _)
  | setPort q => exact .inl ((State.clock_warnOnMargin _ q _).trans (s.clock_updPort q _))
  | detach | pen => exact .inl (s.clock_changeAttach _ _)
  | softReset => exact .inl s.clock_softResetChanges

theorem clockSound_change {u : State} {asker : Option Port} {scan : Bool} (h : Change s asker u scan)
    (hc : s.clock.Sound) (hfits : s.clock.tickFits = true) : u.clock.Sound ∧ u.clock.tickFits = true := by
  obtain hsame | ⟨hready, hresume⟩ | ⟨policy, resume, trim, htrim, hset⟩ := clock_change s h
  · rw [hsame]
    exact ⟨hc, hfits⟩
  · rw [hresume]
    exact ⟨hc.enterReference (hc.present (.inr hready)), Clock.tickFits_enterReference⟩
  · rw [hset, clock_setClockTo]
    split
    · rename_i hauto
      obtain ⟨hready, -, hauto⟩ := hauto
      refine ⟨?_, Clock.tickFits_enterReference⟩
      refine ⟨hc.silence, Clock.correctionLimit_pos, ?_, nofun, fun _ => hc.present (.inr hready), nofun⟩
      obtain rfl | hle := htrim
      · exact hc.trim
      · exact hle
    · rename_i hstays
      refine ⟨hc.configure htrim fun hready => ?_, Clock.tickFits_configure resume trim hfits⟩
      cases hresume : resume with
      | manual => rfl
      | auto => exact absurd ⟨hready, hc.resume hready, hresume⟩ hstays

/-- Chapter 7: every command keeps the clock block. -/
theorem Effect.clockLaw {s t : State} {c : Instr} (h : Effect s c t) (hs : ClockLaw s) (hreset : ResetLaw s) :
    ClockLaw t := by
  obtain ⟨hsound, hfits⟩ := (clockLaw_iff s).1 hs
  refine (clockLaw_iff t).2 ?_
  have running (hr : s.inReset = false) : s.clock.tickFits = true := hfits hr
  have both {d : Clock} (h : d.Sound ∧ d.tickFits = true) :
      d.Sound ∧ (t.inReset = false → d.tickFits = true) := ⟨h.1, fun _ => h.2⟩
  cases h with
  | stands => exact ⟨hsound, hfits⟩
  | request hn _ ht =>
    obtain ⟨u, scan, acked, a, hu, -, rfl⟩ := ht
    rw [State.clock_respond, State.clock_attend, State.clock_settle]
    exact both (clockSound_change s hu hsound (running (s.nextRequest_pending hn).1))
  | event _ hr hu =>
    rw [State.clock_engineEvent]
    exact both (clockSound_change s hu hsound (running hr))
  | quiet _ hq =>
    cases hq with
    | tick hb hready =>
      have hr : s.inReset = false := (s.tickReady_iff.1 hready).1
      rw [State.clock_tickTaken]
      exact both (hsound.tickMade (running hr))
    | @edgeTick d hb hd hready =>
      have hr : s.inReset = false := ((s.setClockBlock d).tickReady_iff.1 hready).1
      rw [State.clock_tickTaken, State.clock_setClockBlock]
      obtain ⟨hd, hdfits⟩ := hsound.move hd (running hr)
      exact both (hd.tickMade hdfits)
    | clock hr hd => exact both (hsound.move hd (running hr))
    | clockPosted hr hd =>
      rw [State.clock_attend, State.clock_postClock, State.clock_setClockBlock]
      exact both (hsound.move hd (running hr))
    | selnFall | ignoredRelease | release | gapEnd => exact ⟨hsound, hfits⟩
  | reset => exact ⟨Clock.sound_reset, nofun⟩
  | release hb pen _ hr =>
    obtain ⟨-, -, -, hclock, -⟩ := hreset hr
    have hstarted : (s.resetReleased hb pen).clock = { s.clock with tick := some TickProgress.local } := rfl
    rw [hstarted, hclock]
    have hsound := Clock.sound_reset
    exact ⟨⟨hsound.silence, hsound.correction, hsound.trim, hsound.qual, hsound.present, hsound.resume⟩, fun _ => rfl⟩

/-- R121: with no event open, none of the present tick is. -/
theorem State.eventsOpen_of_openEvents {s : State} (hr : s.inReset = false) (h : s.openEvents = []) :
    s.eventsOpen = false := by
  rw [State.openEvents, hr, if_neg Bool.false_ne_true] at h
  simp only [List.append_eq_nil_iff, List.flatMap_eq_nil_iff, List.map_eq_nil_iff] at h
  obtain ⟨⟨⟨⟨⟨⟨⟨⟨⟨hslots, hlines⟩, -⟩, -⟩, -⟩, -⟩, -⟩, -⟩, -⟩, -⟩ := h
  rw [State.eventsOpen, Bool.or_eq_false_iff, List.any_eq_false, List.any_eq_false]
  refine ⟨fun i hi => ?_, fun m hm hdue => ?_⟩
  · have := hslots i hi
    simp only [State.openAt, List.append_eq_nil_iff, ite_eq_right_iff, List.cons_ne_nil, imp_false] at this
    obtain ⟨⟨⟨hexpiry, hwait⟩, hyield⟩, hwarning⟩ := this
    simp [hexpiry, hwait, hyield, hwarning]
  · exact List.not_mem_nil (hlines ▸ List.mem_filter.2 ⟨hm, hdue⟩)

/-- R116, R121: with no event open, no tick of the local oscillator is due. -/
theorem State.tickDue_of_openEvents {s : State} (hr : s.inReset = false) (h : s.openEvents = [])
    (hs : s.clock.source = .local) : s.clock.tickDue = false := by
  have hready : s.tickReady = true := by
    simp [State.tickReady, hr, Clock.frozen, hs, s.eventsOpen_of_openEvents hr h]
  rw [State.openEvents, hr, if_neg Bool.false_ne_true] at h
  simp only [List.append_eq_nil_iff] at h
  obtain ⟨⟨⟨⟨⟨⟨-, htick⟩, -⟩, -⟩, -⟩, -⟩, -⟩ := h
  simpa [State.tickComplete, hready] using htick

theorem clockLaw_oscillate {s : State} (ho : s.openEvents = []) (hs : ClockLaw s) : ClockLaw s.oscillate := by
  cases hr : s.inReset with
  | true => rwa [State.oscillate, if_pos hr]
  | false =>
    obtain ⟨hsound, hfits⟩ := (clockLaw_iff s).1 hs
    obtain ⟨hsound', hfits'⟩ := hsound.oscillate (hfits hr) (State.tickDue_of_openEvents hr ho)
    rw [State.oscillate, hr, if_neg Bool.false_ne_true]
    exact (clockLaw_iff _).2 ⟨hsound', fun _ => hfits'⟩

end Sys2Proof.Machine

open Sys2Proof Sys2Proof.Machine

/-- Settles O14: every move of the clock sets the counts and the tick for the state it enters, and the oscillator
counts no period beyond a local tick, which is made as soon as it is due. -/
theorem clockBlockLawKept : Obligations.ClockBlockLawKept := fun s t hc hr h => by
  obtain ⟨hc', -⟩ := law_of_step (P := fun s => ClockLaw s ∧ ResetLaw s) (fun s q k hs => hs)
    (fun he ⟨hc, hr⟩ => ⟨he.clockLaw hc hr, he.resetLaw hr⟩)
    (fun s ho ⟨hc, hr⟩ => ⟨clockLaw_oscillate ho hc, resetLaw_oscillate hr⟩) ⟨hc, hr⟩ h
  exact hc'
end

section
/-! SUPPORT. What a grant scan makes of the table, the queue and the lines, said in full (R37 to R41). -/

namespace Sys2Proof.Machine

variable (s : State)

/-! ## Who is ahead of whom (R37) -/

theorem takeWhile_ne_of_split {i : Fin 16} {ahead behind : List (Fin 16)} (h : i ∉ ahead) :
    ((ahead ++ i :: behind).takeWhile fun j => j ≠ i) = ahead := by
  induction ahead with
  | nil => simp
  | cons j ahead ih =>
    rw [List.mem_cons, not_or] at h
    obtain ⟨hj, hi⟩ := h
    rw [List.cons_append, List.takeWhile_cons, if_pos (by simpa using Ne.symm hj), ih hi]

/-- R37: a waiter is order-eligible when none of those ahead of it intersects it. -/
theorem State.orderEligible_of_split {s : State} {i : Fin 16} {ahead behind : List (Fin 16)}
    (hq : s.queue = ahead ++ i :: behind) (h : i ∉ ahead) :
    s.orderEligible i = true ↔ ∀ j ∈ ahead, intersects (s.linesAt j) (s.linesAt i) = false := by
  rw [State.orderEligible, hq, takeWhile_ne_of_split h]
  simp

theorem intersects_iff {a b : LineSet} :
    intersects a b = true ↔ ∃ m : Fin 16, a.getLsbD m.val = true ∧ b.getLsbD m.val = true := by
  rw [intersects, bne_iff_ne]
  constructor
  · refine fun hne => by_contra fun hnone => hne (BitVec.eq_of_getLsbD_eq fun m hm => ?_)
    have hzero : (0 : LineSet).getLsbD m = false := BitVec.getLsbD_zero
    rw [BitVec.getLsbD_and, hzero]
    cases ha : a.getLsbD m
    · rfl
    · cases hb : b.getLsbD m
      · rfl
      · exact absurd ⟨⟨m, hm⟩, ha, hb⟩ hnone
  · rintro ⟨m, ha, hb⟩ hzero
    have hbit : (a &&& b).getLsbD m.val = false := by
      rw [hzero]
      exact BitVec.getLsbD_zero
    rw [BitVec.getLsbD_and, ha, hb] at hbit
    cases hbit

/-! ## The walk (R39, R40) -/

/-- The slot holds a waiter that is order-eligible with every line of its set FREE (R39). -/
def State.grantable (s : State) (i : Fin 16) : Bool :=
  s.waitingAt i && s.orderEligible i && s.allFree (s.linesAt i)

theorem State.grantable_iff {s : State} {i : Fin 16} : s.grantable i = true ↔
    s.waitingAt i = true ∧ s.orderEligible i = true ∧ s.allFree (s.linesAt i) = true := by
  rw [State.grantable, Bool.and_eq_true, Bool.and_eq_true, and_assoc]

theorem State.waitingAt_iff {s : State} {i : Fin 16} :
    s.waitingAt i = true ↔ ∃ l, s.leaseAt i = some l ∧ l.isWaiting = true := by
  unfold State.waitingAt
  cases s.leaseAt i <;> simp

theorem State.linesAt_of_leaseAt {s : State} {i : Fin 16} {l : Lease} (h : s.leaseAt i = some l) :
    s.linesAt i = l.lines := by
  rw [State.linesAt, h]

theorem State.scanStep_of_grantable {s : State} {i : Fin 16} {l : Lease} (hl : s.leaseAt i = some l)
    (h : s.grantable i = true) : s.scanStep i = s.grantWaiter i l := by
  obtain ⟨hw, ho, hf⟩ := State.grantable_iff.1 h
  rw [State.waitingAt, hl] at hw
  rw [State.linesAt_of_leaseAt hl] at hf
  simp [State.scanStep, hl, hw, ho, hf]

theorem State.scanStep_of_not_grantable {s : State} {i : Fin 16} (h : s.grantable i = false) :
    s.scanStep i = s := by
  obtain hstays | ⟨l, hl, hw, ho, hf, -⟩ := s.scanStep_cases i
  · exact hstays
  · rw [← State.linesAt_of_leaseAt hl] at hf
    exact absurd (h.symm.trans (State.grantable_iff.2 ⟨State.waitingAt_iff.2 ⟨l, hl, hw⟩, ho, hf⟩)) nofun

/-- The slot as a scan grants it (R14, R40). -/
def State.grantedSlot (s : State) (i : Fin 16) : Slot :=
  { s.slot i with
    lease := (s.leaseAt i).map fun l => l.grant s.clock.count (s.port l.holder).margin Notices.grantedOnly }

theorem State.slot_grantWaiter (i j : Fin 16) (l : Lease) :
    (s.grantWaiter i l).slot j =
      if j = i then
        { s.slot j with
          lease := (s.slot j).lease.map (Lease.grant s.clock.count (s.port l.holder).margin Notices.grantedOnly) }
      else s.slot j := by
  simp [State.grantWaiter, State.updLease, State.dequeue, State.bindLines]

/-- The walk has come through the waiters `done`, from `s` to `t`. -/
structure Scanned (s : State) (done : List (Fin 16)) (t : State) : Prop where
  only : OnlyTable s t
  slot : ∀ j, t.slot j = if j ∈ done ∧ s.grantable j = true then s.grantedSlot j else s.slot j
  queue : t.queue = s.queue.filter fun j => !(decide (j ∈ done) && s.grantable j)
  bound : ∀ j m, j ∈ done → s.grantable j = true → (s.linesAt j).getLsbD m.val = true →
    t.line m = (s.line m).bind j
  stands : ∀ m, (∀ j ∈ done, s.grantable j = true → (s.linesAt j).getLsbD m.val = false) → t.line m = s.line m

/-- Two grants of one walk share no line. -/
theorem State.lines_disjoint {s : State} {i : Fin 16} {ahead behind : List (Fin 16)}
    (hq : s.queue = ahead ++ i :: behind) (hi : i ∉ ahead) (h : s.grantable i = true) {j m : Fin 16} (hj : j ∈ ahead)
    (hm : (s.linesAt j).getLsbD m.val = true) : (s.linesAt i).getLsbD m.val = false := by
  obtain ⟨-, ho, -⟩ := State.grantable_iff.1 h
  have hnot := (State.orderEligible_of_split hq hi).1 ho j hj
  rw [Bool.eq_false_iff]
  intro hmi
  rw [intersects_iff.2 ⟨m, hm, hmi⟩] at hnot
  cases hnot

namespace Scanned

variable {s t : State} {done : List (Fin 16)} (h : Scanned s done t)

include h

theorem leaseAt (j : Fin 16) : t.leaseAt j = if j ∈ done ∧ s.grantable j = true then
    (s.leaseAt j).map fun l => l.grant s.clock.count (s.port l.holder).margin Notices.grantedOnly
    else s.leaseAt j := by
  rw [State.leaseAt, h.slot]
  split <;> rfl

theorem linesAt (j : Fin 16) : t.linesAt j = s.linesAt j := by
  have hlease := h.leaseAt j
  by_cases hgranted : j ∈ done ∧ s.grantable j = true
  · rw [if_pos hgranted] at hlease
    rw [State.linesAt, State.linesAt, hlease]
    cases s.leaseAt j <;> rfl
  · rw [if_neg hgranted] at hlease
    rw [State.linesAt, State.linesAt, hlease]

/-- The walk binds lines, and frees none. -/
theorem isFree_of {m : Fin 16} (hm : (t.line m).isFree = true) :
    (s.line m).isFree = true ∧ ∀ j ∈ done, s.grantable j = true → (s.linesAt j).getLsbD m.val = false := by
  have hnone : ∀ j ∈ done, s.grantable j = true → (s.linesAt j).getLsbD m.val = false := fun j hj hg => by
    rw [Bool.eq_false_iff]
    intro hjm
    rw [h.bound j m hj hg hjm] at hm
    cases hm
  rw [h.stands m hnone] at hm
  exact ⟨hm, hnone⟩

/-- R39: the next waiter is granted where it was grantable as the walk began, and where it was not it is not: the
waiters granted ahead of it hold lines that it does not name, or hold those it names. -/
theorem grantable_next {v : Fin 16} {rest : List (Fin 16)} (hq : s.queue = done ++ v :: rest) (hv : v ∉ done) :
    t.grantable v = s.grantable v := by
  have hlease : t.leaseAt v = s.leaseAt v := by rw [h.leaseAt, if_neg fun hd => hv hd.1]
  have hqueue : t.queue = (done.filter fun j => !s.grantable j)
      ++ v :: rest.filter fun j => !(decide (j ∈ done) && s.grantable j) := by
    have hdone : done.filter (fun j => !(decide (j ∈ done) && s.grantable j)) = done.filter fun j => !s.grantable j :=
      List.filter_congr fun j hj => by simp [hj]
    rw [h.queue, hq, List.filter_append, List.filter_cons, hdone, if_pos (by simp [hv])]
  have hv' : v ∉ done.filter fun j => !s.grantable j := fun hmem => hv (List.mem_filter.1 hmem).1
  rw [Bool.eq_iff_iff, State.grantable_iff, State.grantable_iff, State.orderEligible_of_split hqueue hv',
    State.orderEligible_of_split hq hv, State.waitingAt, State.waitingAt, hlease]
  simp only [h.linesAt]
  refine and_congr_right fun _ => ⟨fun ⟨ho, hf⟩ => ?_, fun ⟨ho, hf⟩ => ?_⟩
  · rw [State.allFree_iff] at hf ⊢
    refine ⟨fun j hj => ?_, fun m hm => (h.isFree_of (hf m hm)).1⟩
    cases hg : s.grantable j
    · exact ho j (List.mem_filter.2 ⟨hj, by simp [hg]⟩)
    · rw [Bool.eq_false_iff]
      intro hint
      obtain ⟨m, hjm, hvm⟩ := intersects_iff.1 hint
      exact absurd (((h.isFree_of (hf m hvm)).2 j hj hg).symm.trans hjm) nofun
  · rw [State.allFree_iff] at hf ⊢
    refine ⟨fun j hj => ho j (List.mem_filter.1 hj).1, fun m hm => ?_⟩
    rw [h.stands m fun j hj _ => ?_]
    · exact hf m hm
    · rw [Bool.eq_false_iff]
      exact fun hjm => absurd ((ho j hj).symm.trans (intersects_iff.2 ⟨m, hjm, hm⟩)) nofun

theorem step {v : Fin 16} {rest : List (Fin 16)} (hq : s.queue = done ++ v :: rest) (hnodup : s.queue.Nodup)
    (hw : s.waitingAt v = true) : Scanned s (done ++ [v]) (t.scanStep v) := by
  rw [hq, List.nodup_append] at hnodup
  have hv : v ∉ done := fun hmem => hnodup.2.2 v hmem v (List.mem_cons_self) rfl
  have hgrantable := h.grantable_next hq hv
  have hmem : ∀ {j}, j ∈ done ++ [v] ↔ j ∈ done ∨ j = v := by simp
  cases hg : s.grantable v with
  | false =>
    rw [State.scanStep_of_not_grantable (hgrantable.trans hg)]
    have hsame : ∀ j, j ∈ done ++ [v] ∧ s.grantable j = true ↔ j ∈ done ∧ s.grantable j = true := fun j => by
      rw [hmem]
      refine ⟨fun ⟨hj, hgj⟩ => ⟨hj.resolve_right fun hjv => ?_, hgj⟩, fun ⟨hj, hgj⟩ => ⟨.inl hj, hgj⟩⟩
      rw [hjv, hg] at hgj
      cases hgj
    refine ⟨h.only, fun j => by rw [h.slot]; simp only [hsame], ?_, fun j m hj hgj => ?_, fun m hm => ?_⟩
    · rw [h.queue]
      refine List.filter_congr fun j _ => ?_
      have hj := hsame j
      rw [hmem] at hj
      simp only [hmem]
      cases hgj : s.grantable j <;> simp_all
    · exact h.bound j m ((hsame j).1 ⟨hj, hgj⟩).1 hgj
    · exact h.stands m fun j hj => hm j (hmem.2 (.inl hj))
  | true =>
    obtain ⟨l, hl, -⟩ := State.waitingAt_iff.1 hw
    have hlt : t.leaseAt v = some l := by rw [h.leaseAt, if_neg fun hd => hv hd.1, hl]
    have hlines : s.linesAt v = l.lines := State.linesAt_of_leaseAt hl
    rw [State.scanStep_of_grantable hlt (hgrantable.trans hg)]
    refine ⟨h.only.trans (onlyTable_grantWaiter t v l), fun j => ?_, ?_, fun j m hj hgj hjm => ?_, fun m hm => ?_⟩
    · have hslot := t.slot_grantWaiter v j l
      by_cases hj : j = v
      · rw [hslot, if_pos hj, if_pos ⟨hmem.2 (.inr hj), hj ▸ hg⟩, h.slot, if_neg fun hd => hv (hj ▸ hd.1), h.only.clock,
          h.only.port, State.grantedSlot, ← State.leaseAt, hj, hl]
        rfl
      · rw [hslot, if_neg hj, h.slot]
        simp only [hmem, hj, or_false]
    · rw [State.queue_grantWaiter, h.queue, List.filter_filter]
      refine List.filter_congr fun j _ => ?_
      by_cases hj : j = v <;> simp [hj, hg]
    · rw [State.line_grantWaiter]
      obtain hj | rfl := hmem.1 hj
      · rw [← hlines, State.lines_disjoint hq hv hg hj hjm, if_neg Bool.false_ne_true]
        exact h.bound j m hj hgj hjm
      · rw [← hlines, if_pos hjm, h.stands m]
        · rfl
        · intro k hk hgk
          rw [Bool.eq_false_iff]
          intro hkm
          rw [State.lines_disjoint hq hv hg hk hkm] at hjm
          cases hjm
    · rw [State.line_grantWaiter, ← hlines, hm v (hmem.2 (.inr rfl)) hg, if_neg Bool.false_ne_true]
      exact h.stands m fun j hj => hm j (hmem.2 (.inl hj))

end Scanned

/-- R39, R40: what the whole walk makes. -/
theorem scanned_grantScan {s : State} (hqueue : QueueLaw s) : Scanned s s.queue s.grantScan := by
  obtain ⟨hnodup, hmem, -⟩ := hqueue
  have walk : ∀ (rest done : List (Fin 16)) (t : State), s.queue = done ++ rest → Scanned s done t →
      Scanned s s.queue (rest.foldl State.scanStep t) := by
    intro rest
    induction rest with
    | nil =>
      intro done t hq h
      rwa [hq, List.append_nil]
    | cons v rest ih =>
      intro done t hq h
      have hw := (hmem v).1 (by rw [hq]; simp)
      exact ih (done ++ [v]) _ (by rw [hq]; simp) (h.step hq hnodup hw)
  exact walk s.queue [] s rfl ⟨.refl s, fun j => by simp, by simp, fun j m hj => by simp at hj, fun m _ => rfl⟩

end Sys2Proof.Machine
end

section
/-! SUPPORT. The rounds of an evaluation, what stands through them, and the laws that they leave (R37 to R41, R67 to
R76). -/

namespace Sys2Proof.Machine

variable (s : State)

/-! ## What a scan leaves grantable (R39, R41) -/

/-- R39: a walk leaves no waiter that could be granted. -/
theorem grantLaw_grantScan {s : State} (hqueue : QueueLaw s) : GrantLaw s.grantScan := by
  have h := scanned_grantScan hqueue
  obtain ⟨hnodup, hmem, -⟩ := hqueue
  intro w hw ho
  rw [Bool.eq_false_iff]
  intro hf
  obtain ⟨l, hl, hlw⟩ := State.waitingAt_iff.1 hw
  rw [h.leaseAt] at hl
  have hnot : ¬(w ∈ s.queue ∧ s.grantable w = true) := fun hg => by
    rw [if_pos hg] at hl
    obtain ⟨a, -, rfl⟩ := Option.map_eq_some_iff.1 hl
    cases hlw
  rw [if_neg hnot] at hl
  have hwait : s.waitingAt w = true := State.waitingAt_iff.2 ⟨l, hl, hlw⟩
  have hwq : w ∈ s.queue := (hmem w).2 hwait
  rw [h.linesAt, State.allFree_iff] at hf
  refine hnot ⟨hwq, State.grantable_iff.2 ⟨hwait, ?_, State.allFree_iff.2 fun m hm => (h.isFree_of (hf m hm)).1⟩⟩
  obtain ⟨ahead, behind, hsplit⟩ := List.append_of_mem hwq
  rw [hsplit, List.nodup_append] at hnodup
  have hwa : w ∉ ahead := fun hmem => hnodup.2.2 w hmem w List.mem_cons_self rfl
  have hqueue' : s.grantScan.queue = (ahead.filter fun j => !(decide (j ∈ s.queue) && s.grantable j))
      ++ w :: behind.filter fun j => !(decide (j ∈ s.queue) && s.grantable j) := by
    rw [h.queue, hsplit, List.filter_append, List.filter_cons, if_pos]
    rw [← hsplit]
    simp only [not_and, Bool.not_eq_true] at hnot
    simp [hnot hwq]
  have hwa' : w ∉ ahead.filter fun j => !(decide (j ∈ s.queue) && s.grantable j) := fun hmem =>
    hwa (List.mem_filter.1 hmem).1
  have ho := (State.orderEligible_of_split hqueue' hwa').1 ho
  refine (State.orderEligible_of_split hsplit hwa).2 fun j hj => ?_
  have hjq : j ∈ s.queue := by rw [hsplit]; exact List.mem_append_left _ hj
  cases hg : s.grantable j
  · have := ho j (List.mem_filter.2 ⟨hj, by simp [hg]⟩)
    rwa [h.linesAt, h.linesAt] at this
  · rw [Bool.eq_false_iff]
    intro hint
    obtain ⟨m, hjm, hwm⟩ := intersects_iff.1 hint
    exact absurd (((h.isFree_of (hf m hwm)).2 j hjq hg).symm.trans hjm) nofun

/-! ## The rounds of an evaluation (R41, R68) -/

/-- The leases that a round ends (R68, step 3). -/
def State.endingYields (s : State) : List (Fin 16) := s.startingYields.filter s.zeroWindow

/-- What a round that ends leases leaves to the next one. -/
def State.nextRound (s : State) : State := (s.startYields.preemptAll s.endingYields).grantScan

/-- What the last round leaves. -/
def State.lastRound (s : State) : State := s.startYields.withdrawYields

theorem State.evaluate_last (n : Nat) {s : State} (h : s.endingYields = []) :
    State.evaluate (n + 1) s = (s.lastRound, s.startingYields) := by
  rw [State.endingYields] at h
  simp only [State.evaluate, h]
  rfl

theorem State.evaluate_next (n : Nat) {s : State} (h : s.endingYields ≠ []) :
    State.evaluate (n + 1) s =
      ((State.evaluate n s.nextRound).1, s.startingYields ++ (State.evaluate n s.nextRound).2) := by
  simp only [State.evaluate]
  split
  · exact absurd ‹_› h
  · rfl

theorem State.mem_startingYields {s : State} {j : Fin 16} :
    j ∈ s.startingYields ↔ s.activeAt j = true ∧ s.calledOn j = true := by
  rw [State.startingYields, List.mem_filter, Bool.and_eq_true]
  exact and_iff_right (mem_allSlots j)

theorem State.mem_endingYields {s : State} {j : Fin 16} :
    j ∈ s.endingYields ↔ s.activeAt j = true ∧ s.calledOn j = true ∧ s.zeroWindow j = true := by
  rw [State.endingYields, List.mem_filter, State.mem_startingYields, and_assoc]

theorem State.activeAt_iff {s : State} {j : Fin 16} :
    s.activeAt j = true ↔ ∃ l g, s.leaseAt j = some l ∧ l.phase = .active g := by
  unfold State.activeAt
  cases s.leaseAt j with
  | none => simp
  | some l => cases hp : l.phase <;> simp [Lease.state, hp]

theorem State.yieldingAt_iff {s : State} {j : Fin 16} :
    s.yieldingAt j = true ↔ ∃ l g d, s.leaseAt j = some l ∧ l.phase = .yielding g d := by
  unfold State.yieldingAt
  cases s.leaseAt j with
  | none => simp
  | some l => cases hp : l.phase <;> simp [Lease.state, hp]

/-! ### What the pre-emptions of a round make -/

@[simp] theorem Lease.finish_finish (c d : Cause) (l : Lease) : (l.finish c).finish d = l.finish c := by
  cases hp : l.phase <;> simp [Lease.finish, hp]

theorem State.preemptAll_cons (j : Fin 16) (js : List (Fin 16)) :
    s.preemptAll (j :: js) = (s.endLease j .preempted).preemptAll js := by
  simp only [State.preemptAll, List.foldl_cons]

theorem State.leaseAt_preemptAll (js : List (Fin 16)) (s : State) (i : Fin 16) :
    (s.preemptAll js).leaseAt i =
      if i ∈ js then (s.leaseAt i).map (Lease.finish .preempted) else s.leaseAt i := by
  induction js generalizing s with
  | nil => simp [State.preemptAll]
  | cons j js ih =>
    rw [State.preemptAll_cons, ih, State.leaseAt_endLease]
    by_cases hi : i = j
    · rw [if_pos hi, if_pos (List.mem_cons.2 (.inl hi)), Option.map_map]
      split
      · exact Option.map_congr fun l _ => l.finish_finish _ _
      · rfl
    · rw [if_neg hi]
      simp only [List.mem_cons, hi, false_or]

theorem State.queue_preemptAll (js : List (Fin 16)) (s : State) :
    (s.preemptAll js).queue = s.queue.filter fun i => i ∉ js := by
  induction js generalizing s with
  | nil => simp [State.preemptAll]
  | cons j js ih =>
    rw [State.preemptAll_cons, ih, State.queue_endLease, List.filter_filter]
    exact List.filter_congr fun i _ => by simp [not_or, Bool.and_comm]

/-! ### What ended, and what is FREE, stands through every round -/

theorem Lease.finish_of_isEnded {l : Lease} (h : l.isEnded = true) (c : Cause) : l.finish c = l := by
  cases hp : l.phase <;> simp_all [Lease.isEnded, Lease.finish]

theorem Lease.startYield_of_isEnded {l : Lease} (h : l.isEnded = true) (d : Word) : l.startYield d = l := by
  cases hp : l.phase <;> simp_all [Lease.isEnded, Lease.startYield]

theorem Lease.withdraw_of_isEnded {l : Lease} (h : l.isEnded = true) : l.withdraw = l := by
  cases hp : l.phase <;> simp_all [Lease.isEnded, Lease.withdraw]

/-- What the grants, starts, pre-emptions and withdrawals of an event keep. -/
structure KeptByRounds (P : State → Prop) : Prop where
  grant : ∀ {t : State} {i : Fin 16} {x : Lease}, t.leaseAt i = some x → x.isWaiting = true →
    t.orderEligible i = true → t.allFree x.lines = true → P t → P (t.grantWaiter i x)
  start : ∀ {t : State}, P t → P t.startYields
  preempt : ∀ {t : State} {i : Fin 16}, P t → P (t.endLease i .preempted)
  withdraw : ∀ {t : State}, P t → P t.withdrawYields

namespace KeptByRounds

variable {P : State → Prop} (h : KeptByRounds P)

include h

theorem grantScan {s : State} (hs : P s) : P s.grantScan :=
  State.grantScan_induct (fun _ _ _ hx hw ho hf => h.grant hx hw ho hf) hs

theorem preemptAll {s : State} (hs : P s) (js : List (Fin 16)) : P (s.preemptAll js) :=
  List.foldlRecOn (motive := P) js _ hs fun _ ht _ _ => h.preempt ht

theorem nextRound {s : State} (hs : P s) : P s.nextRound := h.grantScan (h.preemptAll (h.start hs) _)

theorem lastRound {s : State} (hs : P s) : P s.lastRound := h.withdraw (h.start hs)

theorem evaluate {s : State} (hs : P s) (n : Nat) : P (State.evaluate n s).1 :=
  State.evaluate_induct (fun _ _ _ hx hw ho hf => h.grant hx hw ho hf) (fun _ => h.start) (fun _ _ => h.preempt)
    (fun _ => h.withdraw) n hs

theorem settle {s : State} (hs : P s) (scan : Bool) : P (s.settle scan).1 :=
  State.settle_induct (fun _ _ _ hx hw ho hf => h.grant hx hw ho hf) (fun _ => h.start) (fun _ _ => h.preempt)
    (fun _ => h.withdraw) hs scan

end KeptByRounds

theorem onlyTable_keptByRounds : KeptByRounds fun t => OnlyTable s t where
  grant _ _ _ _ h := h.trans (onlyTable_grantWaiter _ _ _)
  start h := h.trans (onlyTable_startYields _)
  preempt h := h.trans (onlyTable_endLease _ _ _)
  withdraw h := h.trans (onlyTable_withdrawYields _)

/-- A lease that ended stands (R11). -/
theorem ended_keptByRounds {j : Fin 16} {l : Lease} (he : l.isEnded = true) :
    KeptByRounds fun t => t.leaseAt j = some l where
  grant {t i x} hx hw _ _ h := by
    rw [State.leaseAt_grantWaiter, if_neg, h]
    rintro rfl
    cases h.symm.trans hx
    cases (Lease.isEnded_of_isWaiting hw).symm.trans he
  start h := by rw [State.leaseAt_startYields, h, Option.map_some, Lease.startYield_of_isEnded he, ite_self]
  preempt h := by rw [State.leaseAt_endLease, h, Option.map_some, Lease.finish_of_isEnded he, ite_self]
  withdraw h := by rw [State.leaseAt_withdrawYields, h, Option.map_some, Lease.withdraw_of_isEnded he, ite_self]

/-- A FREE slot stays FREE: no scan and no evaluation places a lease. -/
theorem free_keptByRounds {j : Fin 16} : KeptByRounds fun t => t.leaseAt j = none where
  grant _ _ _ _ h := by rw [State.leaseAt_grantWaiter, h, Option.map_none, ite_self]
  start h := by rw [State.leaseAt_startYields, h, Option.map_none]
  preempt h := by rw [State.leaseAt_endLease, h, Option.map_none, ite_self]
  withdraw h := by rw [State.leaseAt_withdrawYields, h, Option.map_none]

/-- R7: no scan and no evaluation advances a generation. -/
theorem gen_keptByRounds {j : Fin 16} {g : Byte} : KeptByRounds fun t => (t.slot j).gen = g where
  grant {t i x} _ _ _ _ h := by
    rw [State.slot_grantWaiter]
    split <;> exact h
  start {t} h := by
    rw [State.startYields, State.slot_mapSlots]
    exact h
  preempt {t i} h := by
    rw [State.endLease, State.gen_updLease, State.dequeue, State.slot_setQueue, State.unbindInvoluntary,
      State.slot_mapLines]
    exact h
  withdraw {t} h := by
    rw [State.withdrawYields, State.slot_mapSlots]
    exact h

/-! ### The last round comes (R41) -/

/-- The leases that have not ended. -/
def State.liveCount (s : State) : Nat := allSlots.countP fun j => (s.leaseAt j).any Lease.live

theorem State.any_live_iff {s : State} {j : Fin 16} :
    (s.leaseAt j).any Lease.live = true ↔ ∃ l, s.leaseAt j = some l ∧ l.live = true := by
  cases s.leaseAt j <;> simp

theorem fewerLive_keptByRounds : KeptByRounds fun t => FewerLive s t where
  grant hx hw _ _ h := h.trans (fewerLive_grantWaiter _ hx hw)
  start h := h.trans (sameBoard_startYields _).fewerLive
  preempt h := h.trans (leaves_endLease _ _ _).fewerLive
  withdraw h := h.trans (sameBoard_withdrawYields _).fewerLive

theorem FewerLive.refl : FewerLive s s := fun _ b hb hlive => ⟨b, hb, hlive, rfl, rfl⟩

/-- R68: a lease that a round ends has ended after it. -/
theorem State.ended_nextRound {s : State} {j : Fin 16} (h : j ∈ s.endingYields) :
    ∃ l, s.leaseAt j = some l
      ∧ s.nextRound.leaseAt j = some ((l.startYield (s.ahead (s.port l.holder).window)).finish .preempted) := by
  obtain ⟨hactive, hcalled, -⟩ := State.mem_endingYields.1 h
  obtain ⟨l, g, hl, -⟩ := State.activeAt_iff.1 hactive
  refine ⟨l, hl, (ended_keptByRounds (Lease.isEnded_finish _ _)).grantScan ?_⟩
  rw [State.leaseAt_preemptAll, if_pos h, State.leaseAt_startYields, hl, hcalled]
  rfl

theorem countP_lt_of_mem {f g : Fin 16 → Bool} {j : Fin 16} (h : ∀ i, f i = true → g i = true) (hf : f j = false)
    (hg : g j = true) : ∀ {l : List (Fin 16)}, j ∈ l → l.countP f < l.countP g
  | i :: l, hj => by
    rw [List.countP_cons, List.countP_cons]
    have hle : l.countP f ≤ l.countP g := List.countP_mono_left fun k _ => h k
    obtain rfl | hj := List.mem_cons.1 hj
    · rw [hf, hg]
      simp only [if_true, Bool.false_eq_true, if_false]
      omega
    · have ih := countP_lt_of_mem h hf hg hj
      have hi := h i
      cases hfi : f i <;> cases hgi : g i <;> simp_all

theorem State.liveCount_nextRound {s : State} (h : s.endingYields ≠ []) : s.nextRound.liveCount < s.liveCount := by
  obtain ⟨j, hj⟩ := List.exists_mem_of_ne_nil _ h
  obtain ⟨l, hl, hended⟩ := State.ended_nextRound hj
  obtain ⟨l', g, hl', hphase⟩ := State.activeAt_iff.1 (State.mem_endingYields.1 hj).1
  cases hl.symm.trans hl'
  refine countP_lt_of_mem (j := j) (fun i hi => ?_) ?_ ?_ (mem_allSlots j)
  · obtain ⟨b, hb, hlive⟩ := State.any_live_iff.1 hi
    obtain ⟨a, ha, hlive', -, -⟩ := (fewerLive_keptByRounds s).nextRound (FewerLive.refl s) i b hb hlive
    exact State.any_live_iff.2 ⟨a, ha, hlive'⟩
  · rw [hended]
    simp [Lease.live]
  · exact State.any_live_iff.2 ⟨l, hl, by simp [Lease.live, Lease.isEnded, hphase]⟩

/-- R41: an evaluation comes to a round that ends nothing, through rounds that each keep `P`. -/
theorem State.evaluate_comes_to_last {P : State → Prop}
    (next : ∀ t, P t → t.endingYields ≠ [] → P t.nextRound) (n : Nat) {s : State} (hn : s.liveCount < n) (hs : P s) :
    ∃ t, P t ∧ t.endingYields = [] ∧ (State.evaluate n s).1 = t.lastRound := by
  induction n generalizing s with
  | zero => cases hn
  | succ n ih =>
    by_cases h : s.endingYields = []
    · exact ⟨s, hs, h, by rw [State.evaluate_last n h]⟩
    · have hless := State.liveCount_nextRound h
      obtain ⟨t, ht, hlast, heval⟩ := ih (by omega) (next s hs h)
      exact ⟨t, ht, hlast, by rw [State.evaluate_next n h]; exact heval⟩

theorem State.liveCount_lt : s.liveCount < Config.settleRounds :=
  Nat.lt_succ_of_le (List.countP_le_length (l := allSlots))

/-- R38, R41: so does the settling of an event. -/
theorem State.settle_comes_to_last {P : State → Prop} {scan : Bool}
    (next : ∀ t, P t → t.endingYields ≠ [] → P t.nextRound) {u : State} (hu : P (if scan then u.grantScan else u)) :
    ∃ t, P t ∧ t.endingYields = [] ∧ (u.settle scan).1 = t.lastRound :=
  State.evaluate_comes_to_last next _ (State.liveCount_lt _) hu

/-! ### What a lease keeps until it ends (R53, R76) -/

/-- The lease keeps its terms, and its renewal count from the grant on. -/
def Lease.Became (a b : Lease) : Prop := b.bare = a.bare ∧ b.count.getD 0 = a.count.getD 0

theorem Lease.Became.finish {a b : Lease} (h : a.Became b) (c : Cause) : a.Became (b.finish c) := by
  obtain ⟨hbare, hcount⟩ := h
  refine ⟨(b.bare_finish c).trans hbare, ?_⟩
  rw [← hcount]
  cases hp : b.phase <;> simp [Lease.finish, Lease.count, hp]

theorem became_keptByRounds {j : Fin 16} {a : Lease} :
    KeptByRounds fun t => ∃ b, t.leaseAt j = some b ∧ a.Became b where
  grant {t i x} hx hw _ _ h := by
    obtain ⟨b, hb, hbecame⟩ := h
    rw [State.leaseAt_grantWaiter]
    split
    next hj =>
      subst hj
      cases hb.symm.trans hx
      rw [hb]
      refine ⟨_, rfl, hbecame.1, ?_⟩
      rw [← hbecame.2]
      cases hp : x.phase <;> simp_all [Lease.isWaiting, Lease.grant, Lease.count]
    next => exact ⟨b, hb, hbecame⟩
  start {t} h := by
    obtain ⟨b, hb, hbare, hcount⟩ := h
    rw [State.leaseAt_startYields, hb]
    refine ⟨_, rfl, ?_⟩
    split
    · refine ⟨(b.bare_startYield _).trans hbare, ?_⟩
      rw [← hcount]
      cases hp : b.phase <;> simp [Lease.startYield, Lease.count, hp]
    · exact ⟨hbare, hcount⟩
  preempt {t i} h := by
    obtain ⟨b, hb, hbecame⟩ := h
    rw [State.leaseAt_endLease, hb]
    split
    · exact ⟨_, rfl, hbecame.finish _⟩
    · exact ⟨b, rfl, hbecame⟩
  withdraw {t} h := by
    obtain ⟨b, hb, hbare, hcount⟩ := h
    rw [State.leaseAt_withdrawYields, hb]
    refine ⟨_, rfl, ?_⟩
    split
    · exact ⟨hbare, hcount⟩
    · refine ⟨b.bare_withdraw.trans hbare, ?_⟩
      rw [← hcount]
      cases hp : b.phase <;> simp [Lease.withdraw, Lease.count, hp]

/-- A lease that ends from ACTIVE or YIELDING ends with the count it kept, and ENDED alone pending (R13). -/
theorem Lease.Became.finish_eq {a b : Lease} (h : a.Became b) (hb : b.isEnded = false) (c : Cause) :
    b.finish c = { a with phase := .ended (a.count.getD 0) c, flags := { ended := true } } := by
  obtain ⟨hbare, hcount⟩ := h
  have hfinish : b.finish c = { b.bare with phase := .ended (b.count.getD 0) c, flags := { ended := true } } := by
    cases hp : b.phase with
    | ended => simp [Lease.isEnded, hp] at hb
    | _ => simp only [Lease.finish, Lease.bare, Lease.count, hp]; rfl
  rw [hfinish, hbare, hcount]
  rfl

/-- R75, R76: a lease that enters YIELDING under a window of 0 ends within the evaluation. -/
theorem State.leaseAt_of_entered {j : Fin 16} {a : Lease} (n : Nat) {s : State}
    (hs : ∃ b, s.leaseAt j = some b ∧ a.Became b) (hwindow : (s.port a.holder).window = 0)
    (hj : j ∈ (State.evaluate n s).2) :
    (State.evaluate n s).1.leaseAt j =
      some { a with phase := .ended (a.count.getD 0) .preempted, flags := { ended := true } } := by
  induction n generalizing s with
  | zero => cases hj
  | succ n ih =>
    obtain ⟨b, hb, hbecame⟩ := hs
    have hholder : b.holder = a.holder := (congrArg Lease.holder hbecame.1 :)
    have hends : j ∈ s.startingYields → j ∈ s.endingYields := fun hstarts => by
      obtain ⟨hactive, hcalled⟩ := State.mem_startingYields.1 hstarts
      refine State.mem_endingYields.2 ⟨hactive, hcalled, ?_⟩
      rw [State.zeroWindow, hb]
      simp [hholder, hwindow]
    by_cases hlast : s.endingYields = []
    · rw [State.evaluate_last n hlast] at hj
      have := hends hj
      rw [hlast] at this
      cases this
    · rw [State.evaluate_next n hlast] at hj ⊢
      obtain hj | hj := List.mem_append.1 hj
      · obtain ⟨b', hb', hended⟩ := State.ended_nextRound (hends hj)
        cases hb.symm.trans hb'
        obtain ⟨b', g, hb', hphase⟩ := State.activeAt_iff.1 (State.mem_startingYields.1 hj).1
        cases hb.symm.trans hb'
        rw [(ended_keptByRounds (Lease.isEnded_finish _ _)).evaluate hended n, ← hbecame.finish_eq]
        · simp [Lease.startYield, Lease.finish, hphase]
        · rw [Lease.isEnded, hphase]
      · have hport : s.nextRound.port a.holder = s.port a.holder := ((onlyTable_keptByRounds s).nextRound (.refl s)).port _
        exact ih (became_keptByRounds.nextRound ⟨b, hb, hbecame⟩) (by rw [hport]; exact hwindow) hj

/-! ## The laws that an evaluation leaves (R39, R68, R72) -/

theorem sameBoard_lastRound : SameBoard s s.lastRound := (sameBoard_startYields s).trans (sameBoard_withdrawYields _)

/-- R68, R72: what the last round makes of a lease. -/
theorem State.leaseAt_lastRound (j : Fin 16) :
    s.lastRound.leaseAt j = (s.leaseAt j).map fun l =>
      if s.calledOn j then l.startYield (s.ahead (s.port l.holder).window) else l.withdraw := by
  rw [State.lastRound, State.leaseAt_withdrawYields, State.leaseAt_startYields, State.calledOn_startYields,
    Option.map_map]
  refine Option.map_congr fun l _ => ?_
  cases s.calledOn j <;> rfl

/-- R68: the last round calls on every lease that is YIELDING after it, and on none that is ACTIVE. -/
theorem yieldLaw_lastRound : YieldLaw s.lastRound := fun j => by
  rw [(sameBoard_lastRound s).calledOn]
  refine ⟨fun hactive => ?_, fun hyielding => ?_⟩
  · obtain ⟨b, g, hb, hphase⟩ := State.activeAt_iff.1 hactive
    rw [State.leaseAt_lastRound] at hb
    obtain ⟨a, -, rfl⟩ := Option.map_eq_some_iff.1 hb
    cases hcalled : s.calledOn j
    · rfl
    · rw [hcalled] at hphase
      cases hp : a.phase <;> simp [Lease.startYield, hp] at hphase
  · obtain ⟨b, g, d, hb, hphase⟩ := State.yieldingAt_iff.1 hyielding
    rw [State.leaseAt_lastRound] at hb
    obtain ⟨a, -, rfl⟩ := Option.map_eq_some_iff.1 hb
    cases hcalled : s.calledOn j
    · rw [hcalled] at hphase
      cases hp : a.phase <;> simp [Lease.withdraw, hp] at hphase
    · rfl

/-- R68, R72: the law is a matter of the board and of which leases are ACTIVE and YIELDING. -/
theorem SameBoard.yieldLaw {s t : State} (h : SameBoard s t) (hlease : ∀ j, t.leaseAt j = s.leaseAt j)
    (hs : YieldLaw s) : YieldLaw t := fun j => by
  rw [h.calledOn, State.activeAt, State.yieldingAt, hlease]
  exact hs j

theorem yieldLaw_settle (u : State) (scan : Bool) : YieldLaw (u.settle scan).1 := by
  obtain ⟨t, -, -, hlast⟩ := State.settle_comes_to_last (P := fun _ => True) (scan := scan) (fun _ _ _ => trivial)
    (u := u) trivial
  rw [hlast]
  exact yieldLaw_lastRound t

theorem SameBoard.grantLaw {s t : State} (h : SameBoard s t) (hs : GrantLaw s) : GrantLaw t := fun w hw ho => by
  rw [waitingAt_of_standing h.leases] at hw
  rw [h.orderEligible] at ho
  rw [linesAt_of_standing h.leases, h.allFree]
  exact hs w hw ho

theorem queueLaw_keptByRounds : KeptByRounds fun t => QueueLaw t where
  grant _ _ _ _ h := queueLaw_grantWaiter _ _ _ h
  start h := (sameBoard_startYields _).queueLaw h
  preempt h := (leaves_endLease _ _ _).queueLaw h
  withdraw h := (sameBoard_withdrawYields _).queueLaw h

/-- R39, R41: every scan of an event leaves no waiter grantable, and so does the last round. -/
theorem grantLaw_settle {u : State} {scan : Bool} (hqueue : QueueLaw u) (hu : scan = true ∨ GrantLaw u) :
    GrantLaw (u.settle scan).1 := by
  have hbegins : QueueLaw (if scan then u.grantScan else u) ∧ GrantLaw (if scan then u.grantScan else u) := by
    cases scan with
    | true => exact ⟨queueLaw_keptByRounds.grantScan hqueue, grantLaw_grantScan hqueue⟩
    | false => exact ⟨hqueue, hu.resolve_left nofun⟩
  obtain ⟨t, ⟨-, ht⟩, -, hlast⟩ := State.settle_comes_to_last (P := fun t => QueueLaw t ∧ GrantLaw t)
    (fun t ⟨hq, _⟩ _ => ⟨queueLaw_keptByRounds.nextRound hq,
      grantLaw_grantScan (queueLaw_keptByRounds.preemptAll (queueLaw_keptByRounds.start hq) _)⟩) hbegins
  rw [hlast]
  exact (sameBoard_lastRound t).grantLaw ht

/-! ## The events without a scan (R38, R41) -/

/-- Leases that had ended leave neither the queue nor a line. -/
theorem Leaves.grantLaw_of_ended {s u : State} {gone : Fin 16 → Bool} {voluntary : Bool}
    (h : Leaves s u gone voluntary) (hgone : ∀ j, gone j = true → ∃ l, s.leaseAt j = some l ∧ l.isEnded = true)
    (hbind : BindingLaw s) (hqueue : QueueLaw s) (hs : GrantLaw s) : GrantLaw u := by
  have hwaits : ∀ j, s.waitingAt j = true → gone j = false := fun j hj => by
    rw [Bool.eq_false_iff]
    intro hg
    obtain ⟨l, hl, he⟩ := hgone j hg
    obtain ⟨l', hl', hw⟩ := State.waitingAt_iff.1 hj
    cases hl.symm.trans hl'
    cases (Lease.isEnded_of_isWaiting hw).symm.trans he
  have hsame : u.queue = s.queue := by
    rw [h.queue]
    exact List.filter_eq_self.2 fun j hj => by simp [hwaits j ((hqueue.2.1 j).1 hj)]
  have hline : ∀ m, u.line m = s.line m := fun m => by
    obtain ⟨-, hline, -, -⟩ := h.vacated
    rw [hline]
    split
    · rename_i j hj
      rw [if_neg]
      intro hg
      obtain ⟨l, hl, he⟩ := hgone j hg
      have hholds := (hbind m j).1 hj
      cases hp : l.phase <;> simp_all [State.holdsLine, Lease.isEnded, Lease.holding]
    · rfl
  intro w hw ho
  have hkept : gone w = false := by
    rw [Bool.eq_false_iff]
    intro hg
    obtain ⟨l, hl, hlw⟩ := State.waitingAt_iff.1 hw
    rw [(h.of_gone hg hl).2.1] at hlw
    cases hlw
  have hlines : ∀ j, gone j = false → u.linesAt j = s.linesAt j := fun j hj => by
    rw [State.linesAt, h.leaseAt_of_kept hj, State.linesAt]
  rw [State.waitingAt, h.leaseAt_of_kept hkept] at hw
  have ho : s.orderEligible w = true := by
    rw [State.orderEligible, hsame, List.all_eq_true] at ho
    rw [State.orderEligible, List.all_eq_true]
    intro j hj
    have := ho j hj
    rwa [hlines w hkept, hlines j (hwaits j ((hqueue.2.1 j).1 (List.takeWhile_prefix _ |>.subset hj)))] at this
  rw [hlines w hkept, State.allFree]
  simp only [hline]
  exact hs w hw ho

/-- R30: a placement granted at once leaves the waiters, and fewer lines FREE. -/
theorem grantLaw_grantNow {s : State} {i : Fin 16} {l : Lease} (hfree : s.leaseAt i = none) (hqueue : QueueLaw s)
    (hs : GrantLaw s) : GrantLaw (s.grantNow i l) := by
  have hne : ∀ j, s.waitingAt j = true → j ≠ i := fun j hj hji => by
    rw [State.waitingAt, hji, hfree] at hj
    cases hj
  have hlines : ∀ j, s.waitingAt j = true → (s.grantNow i l).linesAt j = s.linesAt j := fun j hj => by
    rw [State.linesAt, State.leaseAt_grantNow, if_neg (hne j hj), State.linesAt]
  intro w hw ho
  have hwait : s.waitingAt w = true := by
    by_cases hwi : w = i
    · rw [State.waitingAt, State.leaseAt_grantNow, if_pos hwi] at hw
      cases hw
    · rwa [State.waitingAt, State.leaseAt_grantNow, if_neg hwi] at hw
  have ho : s.orderEligible w = true := by
    rw [State.orderEligible, State.queue_grantNow, List.all_eq_true] at ho
    rw [State.orderEligible, List.all_eq_true]
    intro j hj
    have := ho j hj
    rwa [hlines w hwait, hlines j ((hqueue.2.1 j).1 (List.takeWhile_prefix _ |>.subset hj))] at this
  have hbefore := hs w hwait ho
  rw [hlines w hwait, Bool.eq_false_iff, Ne, State.allFree_iff]
  refine fun hall => absurd (hbefore.symm.trans (State.allFree_iff.2 fun m hm => ?_)) nofun
  have hm' := hall m hm
  rw [State.line_grantNow] at hm'
  split at hm'
  · cases hm'
  · exact hm'

theorem grantLaw_change {s u : State} {asker : Option Port} {scan : Bool} (h : Change s asker u scan)
    (hbind : BindingLaw s) (hqueue : QueueLaw s) (hs : GrantLaw s) : scan = true ∨ GrantLaw u := by
  obtain ⟨hboard, -⟩ | hmoves := change_cases s h
  · exact .inr (hboard.grantLaw hs)
  cases hmoves with
  | grantNow hp hc => exact .inr (grantLaw_grantNow (State.leaseAt_of_checkAcquire hc) hqueue hs)
  | leave gone voluntary h hgone =>
    cases hscan : scan with
    | true => exact .inl rfl
    | false => exact .inr (h.grantLaw_of_ended (hgone hscan) hbind hqueue hs)
  | _ => exact .inl rfl

end Sys2Proof.Machine

open Sys2Proof Sys2Proof.Machine

/-- Settles O12: each settling ends with a round that ends nothing, which starts and withdraws as R68 says; and what
comes without one leaves the board. -/
theorem yieldLawKept : Obligations.YieldLawKept := fun _ _ hs h =>
  tableLaw_of_step (P := fun s => YieldLaw s)
    (fun h => (sameBoard_of_stands h).yieldLaw fun j => congrArg Slot.lease (h.1 j))
    (fun {_ _ u scan} _ _ => yieldLaw_settle u scan)
    (fun {s hb} => (sameBoard_tickTaken s hb).yieldLaw fun j => congrArg Slot.lease (s.slot_tickTaken hb j))
    lawsHoldAtReset.yields hs h

/-- Settles O13: each scan leaves no waiter grantable, and an event without one leaves the waiters and frees no
line. -/
theorem noWaiterLeftGrantable : Obligations.NoWaiterLeftGrantable := fun s t hg hb hq h => by
  obtain ⟨hg', -⟩ := tableLaw_of_step (P := fun s => GrantLaw s ∧ BindingLaw s ∧ QueueLaw s)
    (fun h ⟨hg, hb, hq⟩ => have hboard := sameBoard_of_stands h
      ⟨hboard.grantLaw hg, hboard.bindingLaw hb, hboard.queueLaw hq⟩)
    (fun h ⟨hg, hb, hq⟩ => ⟨grantLaw_settle (queueLaw_change h hq) (grantLaw_change h hb hq hg),
      bindingLaw_settle _ (bindingLaw_change h hb), queueLaw_settle _ (queueLaw_change h hq)⟩)
    (fun {s hb'} ⟨hg, hb, hq⟩ => have hboard := sameBoard_tickTaken s hb'
      ⟨hboard.grantLaw hg, hboard.bindingLaw hb, hboard.queueLaw hq⟩)
    ⟨lawsHoldAtReset.grants, lawsHoldAtReset.binding, lawsHoldAtReset.queue⟩ ⟨hg, hb, hq⟩ h
  exact hg'

/-- Settles O19: a lease keeps its count from the event's beginning until the round that ends it, and stands from there
on. -/
theorem zeroWindowPreemptsAtOnce : Obligations.ZeroWindowPreemptsAtOnce := by
  intro s scan j l hj hl hwindow
  have hbegins : ∃ b, s.leaseAt j = some b ∧ l.Became b := ⟨l, hl, rfl, rfl⟩
  cases scan with
  | false => exact State.leaseAt_of_entered _ hbegins hwindow hj
  | true =>
    have hport : (s.grantScan.port l.holder).window = 0 := by rwa [(onlyTable_grantScan s).port]
    exact State.leaseAt_of_entered _ (became_keptByRounds.grantScan hbegins) hport hj

/-- Settles O18: by what the whole walk makes. -/
theorem scanGrantsExactly : Obligations.ScanGrantsExactly := by
  intro s hqueue _ i
  have h := scanned_grantScan hqueue
  refine ⟨fun l hl hw ho hf => ?granted, fun hnot => ?passed⟩
  case granted =>
    have hwait : s.waitingAt i = true := State.waitingAt_iff.2 ⟨l, hl, hw⟩
    have hlines : s.linesAt i = l.lines := State.linesAt_of_leaseAt hl
    have hi : i ∈ s.queue := (hqueue.2.1 i).2 hwait
    have hg : s.grantable i = true := State.grantable_iff.2 ⟨hwait, ho, by rwa [hlines]⟩
    refine ⟨?_, ?_, fun m hm => h.bound i m hi hg (by rwa [hlines])⟩
    · rw [h.slot, if_pos ⟨hi, hg⟩, State.grantedSlot, hl]
      rfl
    · rw [h.queue, List.mem_filter]
      simp [hi, hg]
  case passed =>
    have hg : s.grantable i = false := by
      rw [Bool.eq_false_iff]
      exact fun hg => hnot (State.grantable_iff.1 hg)
    refine ⟨?_, fun hi => ?_⟩
    · rw [h.slot, if_neg]
      rintro ⟨-, hg'⟩
      cases hg.symm.trans hg'
    · rw [h.queue, List.mem_filter]
      exact ⟨hi, by simp [hg]⟩

end

section
/-! SUPPORT. What the scan and the evaluation of an event may make of each slot and each line (R11, R38, R68 to
R76). -/

namespace Sys2Proof.Machine

variable (s : State)

/-! ## Who calls on whom through a round (R67, R68) -/

theorem takeWhile_ne_filter {p : Fin 16 → Bool} {i : Fin 16} (hi : p i = true) (q : List (Fin 16)) :
    ((q.filter p).takeWhile fun j => j ≠ i) = (q.takeWhile fun j => j ≠ i).filter p := by
  induction q with
  | nil => rfl
  | cons j q ih =>
    by_cases hj : j = i
    · simp [hj, hi]
    · by_cases hp : p j = true
      · rw [List.filter_cons_of_pos hp, List.takeWhile_cons_of_pos (by simpa using hj),
          List.takeWhile_cons_of_pos (by simpa using hj), List.filter_cons_of_pos hp, ih]
      · rw [List.filter_cons_of_neg hp, List.takeWhile_cons_of_pos (by simpa using hj), List.filter_cons_of_neg hp, ih]

/-- R37: a waiter stays order-eligible while waiters only leave. -/
theorem State.orderEligible_of_filter {s t : State} {p : Fin 16 → Bool} {i : Fin 16} (hq : t.queue = s.queue.filter p)
    (hi : p i = true) (hlines : ∀ j, p j = true → t.linesAt j = s.linesAt j) (h : s.orderEligible i = true) :
    t.orderEligible i = true := by
  rw [State.orderEligible, List.all_eq_true] at h ⊢
  rw [hq, takeWhile_ne_filter hi]
  intro j hj
  obtain ⟨hj, hp⟩ := List.mem_filter.1 hj
  rw [hlines j hp, hlines i hi]
  exact h j hj

theorem State.blocks_iff {s : State} {j w : Fin 16} :
    s.blocks j w = true ↔ ∃ m : Fin 16, (s.linesAt w).getLsbD m.val = true ∧ (s.line m).boundSlot = some j := by
  rw [State.blocks, List.any_eq_true]
  refine ⟨fun ⟨m, _, hm⟩ => ⟨m, ?_⟩, fun ⟨m, hm, hb⟩ => ⟨m, mem_allLines m, ?_⟩⟩
  · simpa using hm
  · simp [hm, hb]

theorem State.calledOn_iff {s : State} {j : Fin 16} :
    s.calledOn j = true ↔ ∃ w ∈ s.queue, s.justifying w = true ∧ s.blocks j w = true := by
  simp [State.calledOn]

theorem State.justifying_iff {s : State} {w : Fin 16} : s.justifying w = true ↔
    s.waitingAt w = true ∧ s.orderEligible w = true ∧ (∃ j, s.blocks j w = true)
      ∧ ∀ j, s.blocks j w = true → s.yieldsTo j (s.levelAt w) = true := by
  simp only [State.justifying, Bool.and_eq_true, List.any_eq_true, List.all_eq_true, Bool.or_eq_true,
    Bool.not_eq_true', and_assoc]
  refine and_congr_right fun _ => and_congr_right fun _ => and_congr ?_ ?_
  · exact ⟨fun ⟨j, _, hj⟩ => ⟨j, hj⟩, fun ⟨j, hj⟩ => ⟨j, mem_allSlots j, hj⟩⟩
  · refine ⟨fun h j hj => (h j (mem_allSlots j)).resolve_left ?_, fun h j _ => ?_⟩
    · rw [hj]
      exact nofun
    · cases hj : s.blocks j w
      · exact .inl rfl
      · exact .inr (h j hj)

/-- R67: a lease stays called on while its callers keep waiting on it and find no new blocker. -/
theorem State.calledOn_persists {s t : State} {p : Fin 16 → Bool} {j : Fin 16} (hterms : SameTerms s t)
    (hq : t.queue = s.queue.filter p)
    (hcaller : ∀ v, v ∈ s.queue → s.justifying v = true → s.blocks j v = true →
      p v = true ∧ t.waitingAt v = true ∧ t.blocks j v = true ∧ ∀ i, t.blocks i v = true → s.blocks i v = true)
    (h : s.calledOn j = true) : t.calledOn j = true := by
  obtain ⟨v, hv, hjust, hblocks⟩ := State.calledOn_iff.1 h
  obtain ⟨hp, hwait, hblocks', hfewer⟩ := hcaller v hv hjust hblocks
  obtain ⟨-, ho, -, hall⟩ := State.justifying_iff.1 hjust
  refine State.calledOn_iff.2 ⟨v, by rw [hq]; exact List.mem_filter.2 ⟨hv, hp⟩, ?_, hblocks'⟩
  refine State.justifying_iff.2
    ⟨hwait, State.orderEligible_of_filter hq hp (fun k _ => hterms.linesAt k) ho, ⟨j, hblocks'⟩, fun i hi => ?_⟩
  rw [hterms.yieldsTo, hterms.levelAt]
  exact hall i (hfewer i hi)

/-- No waiter of a higher level intersects the lease (R67): nobody can call on it. -/
def State.unthreatened (s : State) (j : Fin 16) : Prop :=
  ∀ v ∈ s.queue, s.levelAt j < s.levelAt v → intersects (s.linesAt v) (s.linesAt j) = false

theorem State.unthreatened.mono {s t : State} {j : Fin 16} (h : s.unthreatened j) (hterms : SameTerms s t)
    (hq : ∀ v ∈ t.queue, v ∈ s.queue) : t.unthreatened j := fun v hv hlevel => by
  rw [hterms.levelAt, hterms.levelAt] at hlevel
  rw [hterms.linesAt, hterms.linesAt]
  exact h v (hq v hv) hlevel

theorem State.holdsLine_iff {s : State} {i m : Fin 16} : s.holdsLine i m = true ↔
    ∃ l, s.leaseAt i = some l ∧ l.holding.isSome = true ∧ l.lines.getLsbD m.val = true := by
  unfold State.holdsLine
  cases s.leaseAt i <;> simp

theorem State.yieldsTo_iff {s : State} {j : Fin 16} {n : Nat} :
    s.yieldsTo j n = true ↔ ∃ l, s.leaseAt j = some l ∧ l.yieldable = true ∧ l.level.val < n := by
  unfold State.yieldsTo
  cases s.leaseAt j <;> simp

theorem State.levelAt_of_leaseAt {s : State} {i : Fin 16} {l : Lease} (h : s.leaseAt i = some l) :
    s.levelAt i = l.level.val := by
  rw [State.levelAt, h]

theorem State.unthreatened.calledOn {s : State} {j : Fin 16} (h : s.unthreatened j) (hbind : BindingLaw s) :
    s.calledOn j = false := by
  rw [Bool.eq_false_iff]
  intro hcalled
  obtain ⟨v, hv, hjust, hblocks⟩ := State.calledOn_iff.1 hcalled
  obtain ⟨-, -, -, hall⟩ := State.justifying_iff.1 hjust
  obtain ⟨l, hl, -, hlevel⟩ := State.yieldsTo_iff.1 (hall j hblocks)
  obtain ⟨m, hm, hbound⟩ := State.blocks_iff.1 hblocks
  obtain ⟨l', hl', -, hlm⟩ := State.holdsLine_iff.1 ((hbind m j).1 hbound)
  cases hl.symm.trans hl'
  have hnot := h v hv (by rwa [State.levelAt_of_leaseAt hl])
  rw [intersects_iff.2 ⟨m, hm, by rwa [State.linesAt_of_leaseAt hl]⟩] at hnot
  cases hnot

/-! ## The two halves of a round (R41, R68) -/

/-- The starts and the pre-emptions of a round. -/
def State.closeRound (s : State) : State := s.startYields.preemptAll s.endingYields

theorem State.leaseAt_closeRound (j : Fin 16) :
    s.closeRound.leaseAt j = (s.leaseAt j).map fun l =>
      if j ∈ s.endingYields then (l.startYield (s.ahead (s.port l.holder).window)).finish .preempted
      else if s.calledOn j then l.startYield (s.ahead (s.port l.holder).window) else l := by
  rw [State.closeRound, State.leaseAt_preemptAll, State.leaseAt_startYields, Option.map_map]
  split
  · rename_i h
    obtain ⟨-, hcalled, -⟩ := State.mem_endingYields.1 h
    rw [hcalled]
    rfl
  · rfl

theorem State.queue_closeRound : s.closeRound.queue = s.queue.filter fun i => i ∉ s.endingYields := by
  rw [State.closeRound, State.queue_preemptAll, State.queue_startYields]

theorem State.line_preemptAll (js : List (Fin 16)) (s : State) (m : Fin 16) :
    (s.preemptAll js).line m =
      match (s.line m).boundSlot with
      | some j => if j ∈ js then (s.line m).toFault s.clock.count else s.line m
      | none => s.line m := by
  induction js generalizing s with
  | nil => cases (s.line m).boundSlot <;> simp [State.preemptAll]
  | cons i js ih =>
    rw [State.preemptAll_cons, ih, State.line_endLease, State.clock_endLease]
    cases hb : (s.line m).boundSlot with
    | none => simp [hb]
    | some j =>
      by_cases hj : j = i
      · simp [hj]
      · simp [hj, hb]

theorem State.line_closeRound (m : Fin 16) :
    s.closeRound.line m =
      match (s.line m).boundSlot with
      | some j => if j ∈ s.endingYields then (s.line m).toFault s.clock.count else s.line m
      | none => s.line m := by
  rw [State.closeRound, State.line_preemptAll, State.line_startYields, State.clock_startYields]

theorem State.boundSlot_closeRound (m j : Fin 16) :
    (s.closeRound.line m).boundSlot = some j ↔ (s.line m).boundSlot = some j ∧ j ∉ s.endingYields := by
  rw [State.line_closeRound]
  cases hb : (s.line m).boundSlot with
  | none => simp [hb]
  | some i =>
    by_cases hi : i ∈ s.endingYields
    · simp only [hi, if_true, Line.boundSlot_toFault, Option.some_inj]
      exact ⟨nofun, fun ⟨hij, hj⟩ => absurd (hij ▸ hi) hj⟩
    · simp only [hi, if_false, hb, Option.some_inj]
      exact ⟨fun hij => ⟨hij, hij ▸ hi⟩, fun h => h.1⟩

theorem sameTerms_keptByRounds : KeptByRounds fun t => SameTerms s t where
  grant _ _ _ _ h := h.trans (sameTerms_grantWaiter _ _ _)
  start h := h.trans (sameTerms_startYields _)
  preempt h := h.trans (sameTerms_endLease _ _ _)
  withdraw h := h.trans (sameTerms_withdrawYields _)

theorem SameTerms.refl : SameTerms s s := fun _ => rfl

theorem sameTerms_closeRound : SameTerms s s.closeRound :=
  (sameTerms_keptByRounds s).preemptAll ((sameTerms_keptByRounds s).start (SameTerms.refl s)) _

/-- R68: a waiter neither starts a yield nor is pre-empted. -/
theorem State.not_mem_endingYields_of_waiting {s : State} {j : Fin 16} (h : s.waitingAt j = true) :
    j ∉ s.endingYields := fun hj => by
  obtain ⟨l, hl, hw⟩ := State.waitingAt_iff.1 h
  obtain ⟨l', g, hl', hp⟩ := State.activeAt_iff.1 (State.mem_endingYields.1 hj).1
  cases hl.symm.trans hl'
  rw [Lease.isWaiting, hp] at hw
  cases hw

theorem State.waitingAt_closeRound {s : State} {v : Fin 16} (h : s.waitingAt v = true) :
    s.closeRound.waitingAt v = true := by
  obtain ⟨l, hl, hw⟩ := State.waitingAt_iff.1 h
  refine State.waitingAt_iff.2 ⟨l, ?_, hw⟩
  rw [State.leaseAt_closeRound, hl, Option.map_some, if_neg (State.not_mem_endingYields_of_waiting h)]
  cases hp : l.phase <;> simp_all [Lease.isWaiting, Lease.startYield]

/-- R68, R74: a lease that the round does not end stays called on. -/
theorem State.calledOn_closeRound {s : State} {j : Fin 16} (hj : j ∉ s.endingYields) (h : s.calledOn j = true) :
    s.closeRound.calledOn j = true := by
  refine State.calledOn_persists (sameTerms_closeRound s) s.queue_closeRound (fun v _ hjust hblocks => ?_) h
  obtain ⟨hwait, -⟩ := State.justifying_iff.1 hjust
  refine ⟨by simpa using State.not_mem_endingYields_of_waiting hwait, State.waitingAt_closeRound hwait, ?_,
    fun i hi => ?_⟩
  · obtain ⟨m, hm, hb⟩ := State.blocks_iff.1 hblocks
    exact State.blocks_iff.2
      ⟨m, by rwa [(sameTerms_closeRound s).linesAt], (s.boundSlot_closeRound m j).2 ⟨hb, hj⟩⟩
  · obtain ⟨m, hm, hb⟩ := State.blocks_iff.1 hi
    exact State.blocks_iff.2
      ⟨m, by rwa [(sameTerms_closeRound s).linesAt] at hm, ((s.boundSlot_closeRound m i).1 hb).1⟩

section Scan

variable {s : State} (hqueue : QueueLaw s)

include hqueue

/-- R39: a waiter that a scan grants has none of a higher level on its lines. -/
theorem State.unthreatened_of_granted {j : Fin 16} (hg : s.grantable j = true) : s.grantScan.unthreatened j := by
  have h := scanned_grantScan hqueue
  obtain ⟨hnodup, hmem, hsorted⟩ := hqueue
  obtain ⟨hwait, ho, -⟩ := State.grantable_iff.1 hg
  obtain ⟨ahead, behind, hsplit⟩ := List.append_of_mem ((hmem j).2 hwait)
  have hterms : SameTerms s s.grantScan := (sameTerms_keptByRounds s).grantScan (.refl s)
  intro v hv hlevel
  rw [hterms.levelAt, hterms.levelAt] at hlevel
  rw [hterms.linesAt, hterms.linesAt]
  rw [h.queue] at hv
  have hvq := (List.mem_filter.1 hv).1
  rw [hsplit] at hvq hnodup hsorted
  have hj : j ∉ ahead := fun hmem => (List.nodup_append.1 hnodup).2.2 j hmem j List.mem_cons_self rfl
  obtain hva | hva := List.mem_append.1 hvq
  · exact (State.orderEligible_of_split hsplit hj).1 ho v hva
  · obtain rfl | hvb := List.mem_cons.1 hva
    · omega
    · obtain ⟨-, hbehind, -⟩ := List.pairwise_append.1 hsorted
      have := (List.pairwise_cons.1 hbehind).1 v hvb
      omega

/-- R39, R67: a scan grants nobody who waits on a lease that holds, and nobody who intersects a justifying waiter: so
that waiter goes on calling. -/
theorem State.calledOn_grantScan {j : Fin 16} (h : s.calledOn j = true) : s.grantScan.calledOn j = true := by
  have hscan := scanned_grantScan hqueue
  refine State.calledOn_persists ((sameTerms_keptByRounds s).grantScan (.refl s)) hscan.queue
    (fun v hv hjust hblocks => ?_) h
  obtain ⟨hwait, ho, -, -⟩ := State.justifying_iff.1 hjust
  obtain ⟨m, hm, hb⟩ := State.blocks_iff.1 hblocks
  have hnot : s.grantable v = false := by
    rw [Bool.eq_false_iff]
    intro hg
    have hfree := State.isFree_of_allFree (State.grantable_iff.1 hg).2.2 hm
    rw [Line.boundSlot_of_isFree hfree] at hb
    cases hb
  -- A grant of the walk that shares a line with `v` would stand ahead of it, or behind it.
  have hnone : ∀ k, v ∈ s.queue → k ∈ s.queue → s.grantable k = true →
      ∀ m : Fin 16, (s.linesAt v).getLsbD m.val = true → (s.linesAt k).getLsbD m.val = false := by
    intro k _ hk hg m hvm
    rw [Bool.eq_false_iff]
    intro hkm
    have hne : k ≠ v := fun hkv => by
      rw [hkv, hnot] at hg
      cases hg
    obtain ⟨hnodup, -, -⟩ := hqueue
    obtain ⟨ahead, behind, hsplit⟩ := List.append_of_mem hv
    rw [hsplit] at hk hnodup
    have hva : v ∉ ahead := fun hmem => (List.nodup_append.1 hnodup).2.2 v hmem v List.mem_cons_self rfl
    obtain hka | hkb := List.mem_append.1 hk
    · have := (State.orderEligible_of_split hsplit hva).1 ho k hka
      rw [intersects_iff.2 ⟨m, hkm, hvm⟩] at this
      cases this
    · have hkb := (List.mem_cons.1 hkb).resolve_left hne
      obtain ⟨front, back, rfl⟩ := List.append_of_mem hkb
      have hsplit' : s.queue = (ahead ++ v :: front) ++ k :: back := by rw [hsplit]; simp
      have hkf : k ∉ ahead ++ v :: front := fun hmem => by
        rw [hsplit.symm.trans hsplit'] at hnodup
        exact (List.nodup_append.1 hnodup).2.2 k hmem k List.mem_cons_self rfl
      have := (State.orderEligible_of_split hsplit' hkf).1 (State.grantable_iff.1 hg).2.1 v (by simp)
      rw [intersects_iff.2 ⟨m, hvm, hkm⟩] at this
      cases this
  have hstands : ∀ m : Fin 16, (s.linesAt v).getLsbD m.val = true → s.grantScan.line m = s.line m := fun m hm =>
    hscan.stands m fun k hk hg => hnone k hv hk hg m hm
  refine ⟨by simp [hnot], ?_, ?_, fun i hi => ?_⟩
  · rw [State.waitingAt, hscan.leaseAt, if_neg fun hg => absurd (hnot.symm.trans hg.2) (by nofun), ← State.waitingAt]
    exact hwait
  · exact State.blocks_iff.2 ⟨m, by rwa [hscan.linesAt], by rwa [hstands m hm]⟩
  · obtain ⟨m', hm', hb'⟩ := State.blocks_iff.1 hi
    rw [hscan.linesAt] at hm'
    exact State.blocks_iff.2 ⟨m', hm', by rwa [hstands m' hm'] at hb'⟩

end Scan

end Sys2Proof.Machine
end

section
/-! SUPPORT. The commands as a whole, the transactions and the round robin (chapter 9). -/

namespace Sys2Proof.Machine

variable (s : State)

/-! ## Request frames (R148, R157) -/

@[simp] theorem join16_bytes16 (x : BitVec 16) : join16 (x.extractLsb' 8 8) (x.extractLsb' 0 8) = x := by
  refine BitVec.eq_of_getLsbD_eq fun i hi => ?_
  simp only [join16, BitVec.getLsbD_append, BitVec.getLsbD_extractLsb']
  by_cases h : i < 8
  · simp [h]
  · simp only [h, if_false, Nat.add_sub_cancel' (Nat.le_of_not_lt h)]
    simp only [show i - 8 < 8 by omega, decide_true, Bool.true_and]

/-- R157: a request is read back from its own arguments. -/
theorem Request.parse_args (r : Request) : Request.parse r.command r.args = some r := by
  cases r <;> simp [Request.parse, Request.command, Request.args, Handle.bytes, bytes16]

theorem Request.eq_of_args {r r' : Request} (hc : r'.command = r.command) (ha : r'.args = r.args) : r' = r := by
  have h := r'.parse_args
  rw [hc, ha, r.parse_args] at h
  exact (Option.some.inj h).symm

theorem commandOfCode_code (c : Command) : commandOfCode c.code = some c := by cases c <;> rfl

theorem Command.code_ne_zero (c : Command) : c.code ≠ 0 := by cases c <;> decide

theorem Command.argLength_le (c : Command) : c.argLength ≤ 24 := by cases c <;> decide

/-- R151: the receiver accepts the frame of a request, whatever follows it. -/
theorem receive_frame (r : Request) (x : Port) (more : List Byte) (hport : r.command.supervisor = false ∨ x = .A) :
    receive x r.command.code (BitVec.ofNat 8 r.args.length :: (r.args
      ++ crcOf (r.command.code :: BitVec.ofNat 8 r.args.length :: r.args) :: more)) = .accepted r := by
  have hle : r.args.length ≤ 24 := r.length_args ▸ r.command.argLength_le
  have hn : (BitVec.ofNat 8 r.args.length).toNat = r.args.length := by
    rw [BitVec.toNat_ofNat, Nat.mod_eq_of_lt (by omega)]
  obtain ⟨r', hcommand, hargs, haccepted⟩ :=
    checkCommand_accepted (p := x) (args := r.args) (commandOfCode_code r.command) r.length_args hport
  have hcheck : (r.args ++ crcOf (r.command.code :: BitVec.ofNat 8 r.args.length :: r.args) :: more)[
      (BitVec.ofNat 8 r.args.length).toNat]? = some (crcOf (r.command.code :: BitVec.ofNat 8 r.args.length :: r.args)) := by
    rw [hn, List.getElem?_append_right (Nat.le_refl _), Nat.sub_self, List.getElem?_cons_zero]
  rw [receive_checked (by omega) hcheck (by rw [hn, List.take_left]), hn, List.take_left, haccepted,
    Request.eq_of_args hcommand hargs]

/-! ## What MISO_x shifts out (R145, R147) -/

/-- R145: bit `n` of a frame is bit `7 - n % 8` of its byte `n / 8`. -/
theorem getElem?_frameBits (bytes : List Byte) (n : Nat) :
    (frameBits bytes)[n]? = bytes[n / 8]?.map fun b => b.getLsbD (7 - n % 8) := by
  induction bytes generalizing n with
  | nil => simp [frameBits]
  | cons b bytes ih =>
    have hcons : frameBits (b :: bytes) = byteBits b ++ frameBits bytes := List.flatMap_cons
    by_cases hn : n < 8
    · rw [hcons, List.getElem?_append_left (by simpa [byteBits] using hn), Nat.div_eq_of_lt hn, Nat.mod_eq_of_lt hn]
      interval_cases n <;> rfl
    · obtain ⟨m, rfl⟩ := Nat.exists_eq_add_of_le (Nat.le_of_not_lt hn)
      have hlen : (byteBits b).length = 8 := rfl
      rw [hcons, List.getElem?_append_right (by omega), hlen, Nat.add_sub_cancel_left, ih,
        Nat.add_div_left m (by decide), Nat.add_mod_left, List.getElem?_cons_succ]

theorem State.misoByte_of_shifting {s : State} {x : Port} {copy : Buffer}
    (h : (s.port x).transaction = .shifting copy) (k : Nat) : s.misoByte x k = some (copy.frame.getD k 0xFF) := by
  simp only [State.misoByte, h]

theorem getD_of_lt {l : List Byte} {k : Nat} (h : k < l.length) (d : Byte) : some (l.getD k d) = l[k]? := by
  rw [List.getD_eq_getElem?_getD, List.getElem?_eq_getElem h, Option.getD_some]

theorem getD_of_le {l : List Byte} {k : Nat} (h : l.length ≤ k) (d : Byte) : l.getD k d = d := by
  rw [List.getD_eq_getElem?_getD, List.getElem?_eq_none h, Option.getD_none]

/-! ## The round robin (R154) -/

theorem State.updPort_congr {s : State} {p : Port} {f g : PortState → PortState} (h : f (s.port p) = g (s.port p)) :
    s.updPort p f = s.updPort p g := by
  refine State.ext_of_reads (s := s.updPort p g) (t := s.updPort p f) (fun _ => rfl) (fun _ => rfl) (fun q => ?_)
    (fun _ => rfl) rfl rfl rfl rfl rfl rfl
  rw [State.port_updPort, State.port_updPort]
  split
  · rename_i hq
    rw [hq, h]
  · rfl

/-- How long port `p` waits for its turn after `q` (R154). -/
def turn (q p : Port) : Nat := (portBit p + 3 - portBit q) % 4

theorem mem_portsAfter (q p : Port) : p ∈ portsAfter q := by cases q <;> cases p <;> decide

theorem pairwise_portsAfter (q : Port) : (portsAfter q).Pairwise fun a b => turn q a < turn q b := by
  cases q <;> decide

theorem State.nextRequest_iff {s : State} {p : Port} {r : Request} : s.nextRequest = some (p, r) ↔
    s.inReset = false ∧ (s.port p).buffer = .pending r
      ∧ ∀ q, turn s.pointer q < turn s.pointer p → (s.port q).buffer.request = none := by
  have hsorted := pairwise_portsAfter s.pointer
  constructor
  · intro h
    obtain ⟨hreset, hpending⟩ := State.nextRequest_pending s h
    refine ⟨hreset, hpending, fun q hq => ?_⟩
    rw [State.nextRequest, hreset, if_neg Bool.false_ne_true, List.findSome?_eq_some_iff] at h
    obtain ⟨front, a, back, hsplit, ha, hnone⟩ := h
    obtain ⟨r', -, ha⟩ := Option.map_eq_some_iff.1 ha
    obtain ⟨rfl, -⟩ := Prod.mk.inj ha
    have hmem := mem_portsAfter s.pointer q
    rw [hsplit] at hmem hsorted
    obtain hfront | hback := List.mem_append.1 hmem
    · simpa using hnone q hfront
    · obtain rfl | hback := List.mem_cons.1 hback
      · omega
      · have := (List.pairwise_cons.1 (List.pairwise_append.1 hsorted).2.1).1 q hback
        omega
  · rintro ⟨hreset, hpending, hnone⟩
    rw [State.nextRequest, hreset, if_neg Bool.false_ne_true, List.findSome?_eq_some_iff]
    obtain ⟨front, back, hsplit⟩ := List.append_of_mem (mem_portsAfter s.pointer p)
    rw [hsplit] at hsorted
    refine ⟨front, p, back, hsplit, by rw [hpending]; rfl, fun q hq => ?_⟩
    rw [hnone q ((List.pairwise_append.1 hsorted).2.2 q hq p List.mem_cons_self)]
    rfl

theorem Request.takesRequest_instr (r : Request) : r.instr.takesRequest = true := by cases r <;> rfl

/-! ## Commands whose event does not arise (log entry 7) -/

theorem not_arisen {s : State} {due : Bool} (h : s.inReset = true ∨ due = false) : (!s.inReset && due) = false := by
  obtain h | h := h <;> simp [h]

end Sys2Proof.Machine

open Sys2Proof Sys2Proof.Machine

/-- Settles O1: it is how a step is defined. -/
theorem stepRunsFrontCommand : Obligations.StepRunsFrontCommand := fun c rest s h => by rw [step, h]

/-- Settles O21: the two cases of the falling edge. -/
theorem selnFallTakesCopy : Obligations.SelnFallTakesCopy := by
  intro s x hidle
  have hexec : exec (.selnFall x) s = .next (s.updPort x fun q =>
      { q with transaction := if s.attached x then .shifting q.buffer else .ignored }) := by
    change execSelnFall x s = _
    simp only [execSelnFall, hidle]
  refine ⟨fun hattached => ?_, fun hdetached => ?_⟩
  · rw [hexec]
    refine congrArg _ (State.updPort_congr ?_)
    simp only [hattached, if_true]
  · rw [hexec]
    refine congrArg _ (State.updPort_congr ?_)
    simp only [hdetached, Bool.false_eq_true, if_false]

/-- Settles O22: by the cases of the release. -/
theorem transactionsThatChangeNothing : Obligations.TransactionsThatChangeNothing := by
  intro s x mosi
  refine ⟨fun hignored => ?_, fun copy hcopy hnothing => ?_⟩
  · change execTransactionRelease x mosi s = _
    simp only [execTransactionRelease, hignored]
  · have hbuffer : ∀ now : Buffer, releasedBuffer x copy now (bytesOfBits mosi) = now := by
      intro now
      obtain hshort | ⟨more, rfl⟩ | ⟨r, rfl⟩ := hnothing
      · rw [bytesOfBits_of_length_lt_eight hshort]
        rfl
      · have hbits : byteBits 0 ++ more = frameBits [0] ++ more := rfl
        rw [hbits, bytesOfBits_frameBits]
        rfl
      · cases bytesOfBits mosi with
        | nil => rfl
        | cons code rest =>
          simp only [releasedBuffer]
          exact ite_self _
    change execTransactionRelease x mosi s = _
    simp only [execTransactionRelease, hcopy, hbuffer]

/-- Settles O24: the receiver accepts the frame, and a request is read back from its arguments. -/
theorem requestFrameRoundTrip : Obligations.RequestFrameRoundTrip := by
  intro r s x copy more hcopy hnone hport
  have hbytes : bytesOfBits (frameBits r.frame ++ more) = r.command.code :: BitVec.ofNat 8 r.args.length :: (r.args
      ++ crcOf (r.command.code :: BitVec.ofNat 8 r.args.length :: r.args) :: bytesOfBits more) := by
    rw [bytesOfBits_frameBits, Request.frame]
    simp
  change execTransactionRelease x (frameBits r.frame ++ more) s = _
  simp only [execTransactionRelease, hcopy, hbytes, releasedBuffer_of_request hnone r.command.code_ne_zero,
    receivedBuffer_of_accepted (receive_frame r x (bytesOfBits more) hport)]

/-- Settles O25: by the bytes of the copy's frame. -/
theorem responseFrameIsClosed : Obligations.ResponseFrameIsClosed := by
  refine ⟨fun s x e a hshift => ?_, fun s x k hshift => ?_, fun s x r k hshift => ?_⟩
  · intro covered
    have hframe : (Buffer.ready (Response.make e a)).frame = 0xAA :: (covered ++ [crcOf covered]) := rfl
    have hbyte : ∀ k, s.misoByte x (k + 1) = some ((covered ++ [crcOf covered]).getD k 0xFF) := fun k => by
      rw [State.misoByte_of_shifting hshift, hframe, List.getD_cons_succ]
    refine ⟨by rw [State.misoByte_of_shifting hshift, hframe]; rfl, fun k hk => ?_,
      ⟨crcOf covered, ?_, crcOf_closed covered⟩, fun k hk => ?_⟩
    · rw [hbyte, getD_of_lt (by rw [List.length_append]; omega), List.getElem?_append_left hk]
    · rw [hbyte, getD_of_lt (by rw [List.length_append]; simp), List.getElem?_concat_length]
    · obtain ⟨m, rfl⟩ : ∃ m, k = m + 1 := ⟨k - 1, by omega⟩
      rw [hbyte, getD_of_le (by rw [List.length_append, List.length_singleton]; omega)]
  · rw [State.misoByte_of_shifting hshift]
    cases k <;> rfl
  · rw [State.misoByte_of_shifting hshift]
    cases k <;> rfl

/-- Settles O58: bit `n` of a frame lies in its byte `n / 8`. -/
theorem misoBitsLeaveMsbFirst : Obligations.MisoBitsLeaveMsbFirst := by
  refine fun s x => ⟨fun copy hshift n => ⟨fun hn => ?_, fun hn => ?_⟩, fun hidle n => ?_⟩
  · rw [State.misoBit, State.misoByte_of_shifting hshift, getD_of_lt (by omega), getElem?_frameBits]
  · rw [State.misoBit, State.misoByte_of_shifting hshift, getD_of_le (by omega)]
    have hlt : 7 - n % 8 < 8 := by omega
    interval_cases 7 - n % 8 <;> rfl
  · rw [State.misoBit, State.misoByte]
    cases htrans : (s.port x).transaction with
    | idle | ignored => rfl
    | shifting copy =>
      rw [htrans] at hidle
      cases hidle

/-- Settles O26: the ports of the walk stand in the order of their turns. -/
theorem roundRobinTakesFirstPending : Obligations.RoundRobinTakesFirstPending := fun _ _ _ => State.nextRequest_iff

/-- Settles O28: each command first asks whether its event arises. -/
theorem eventsThatDoNotArise : Obligations.EventsThatDoNotArise := by
  refine ⟨fun s c r hc hnone => ?_, fun s i h => ?_, fun s i h => ?_, fun s i h => ?_, fun s i h => ?_, fun s i h => ?_,
    fun s n h => ?_, fun s x h => ?_, fun s x high h => ?_, fun s x h => ?_, fun s x mosi h => ?_,
    fun s hb pen h => ?_⟩
  · exact exec_of_not_nextRequest s (hc ▸ r.takesRequest_instr) hnone
  · change execExpiry i.val s = _
    rw [execExpiry, dif_pos i.isLt, not_arisen h, if_neg Bool.false_ne_true]
  · change execWaitDeadline i.val s = _
    rw [execWaitDeadline, dif_pos i.isLt, not_arisen h, if_neg Bool.false_ne_true]
  · change execYieldDeadline i.val s = _
    rw [execYieldDeadline, dif_pos i.isLt, not_arisen h, if_neg Bool.false_ne_true]
  · change execWarningEvent i.val s = _
    rw [execWarningEvent, dif_pos i.isLt, not_arisen h, if_neg Bool.false_ne_true]
  · change execQuarantineDeadline i.val s = _
    rw [execQuarantineDeadline, dif_pos i.isLt, not_arisen h, if_neg Bool.false_ne_true]
  · have hnone : s.inReset = true ∨ decide (0 < (s.input n).claims) = false := h.imp_right fun h => by simp [h]
    change execRenewalClaim n.val s = _
    rw [execRenewalClaim, dif_pos n.isLt, not_arisen hnone, if_neg Bool.false_ne_true]
  · change execGapEnd x s = _
    rw [execGapEnd, if_pos]
    obtain h | h := h <;> simp [h]
  · change execPenChange x high s = _
    rw [execPenChange, if_pos]
    obtain h | h := h <;> simp [h]
  · change execSelnFall x s = _
    cases htrans : (s.port x).transaction with
    | idle => exact absurd htrans h
    | ignored | shifting => simp only [execSelnFall, htrans]
  · change execTransactionRelease x mosi s = _
    simp only [execTransactionRelease, h]
  · change execResetRelease hb pen s = _
    rw [execResetRelease, h, if_neg Bool.false_ne_true]

end

section
/-! SUPPORT. The checks of the commands that name a handle, and the refusals that follow them (R9, R16, R49, R96,
R136). -/

namespace Sys2Proof.Machine

variable (s : State)

/-! ## Refusals (R24, R68) -/

/-- A refused request of a settled part leaves its answer alone. -/
theorem exec_of_refuse {s : State} {p : Port} {r : Request} {a : Answer} (hn : s.nextRequest = some (p, r))
    (hy : YieldLaw s) (ha : AttentionLaw s) (h : s.taken p r = s.refuse p r.command a) :
    exec r.instr s = .next (s.respond p r.command a) := by
  rw [exec_instr_of_nextRequest hn, h, s.refuse_eq_respond hy ha]

/-! ## The handle checks (R9) -/

theorem slotOfByte_eq_none {b : Byte} (h : 15 < b.toNat) : slotOfByte b = none := by
  rw [slotOfByte, dif_neg (by omega)]

theorem slotOfByte_of_toNat {b : Byte} {i : Fin 16} (h : b.toNat = i.val) : slotOfByte b = some i := by
  rw [slotOfByte, dif_pos (h ▸ i.isLt)]
  exact congrArg some (Fin.ext h)

/-- Whose lease a command that names a handle asks for: any port's, for a REVOKE (R9). -/
def Request.claimant (r : Request) (p : Port) : Option Port := if r.command = .revoke then none else some p

section Checks

variable {s : State} {holder : Option Port} {h : Handle} {i : Fin 16}

theorem State.checkHandle_range (hslot : 15 < h.slot.toNat) : s.checkHandle holder h = .refused .range := by
  simp only [State.checkHandle, slotOfByte_eq_none hslot]

theorem State.checkHandle_stale (hslot : h.slot.toNat = i.val)
    (hstale : s.leaseAt i = none ∨ (s.slot i).gen ≠ h.gen) : s.checkHandle holder h = .refused .stale := by
  simp only [State.checkHandle, slotOfByte_of_toNat hslot]
  cases hl : s.leaseAt i with
  | none => rfl
  | some l =>
    rw [hl] at hstale
    exact if_pos (hstale.resolve_left nofun)

theorem State.checkHandle_notHolder {l : Lease} {p : Port} (hc : Current s h i l) (hp : l.holder ≠ p) :
    s.checkHandle (some p) h = .refused .notHolder := by
  obtain ⟨hslot, hl, hgen⟩ := hc
  simp only [State.checkHandle, slotOfByte_of_toNat hslot, hl, hgen, hp, ne_eq, not_true, if_false]

theorem State.checkHandle_claimant {l : Lease} {p : Port} {r : Request} (hc : Current s h i l)
    (hp : l.holder = p ∨ r.command = .revoke) : s.checkHandle (r.claimant p) h = .current i l := by
  obtain ⟨hnone, hholder⟩ := s.checkHandle_of_current hc
  rw [Request.claimant]
  split
  · exact hnone
  · rename_i hne
    rwa [← hp.resolve_right hne]

end Checks

/-! ## The arguments that need no record (R49, R96, R136) -/

theorem driveOfByte_eq_none {b : Byte} : driveOfByte b = none ↔ 2 < b.toNat := by
  unfold driveOfByte
  split <;> simp_all
  omega

/-- The timing of a pulse is in range (R96). -/
abbrev PulseInRange (kind onTime period : Byte) : Prop :=
  (kind = 3 ∨ kind = 4) ∧ onTime ≠ 0 ∧ 2 ≤ period.toNat ∧ onTime.toNat < period.toNat

theorem orderedDrive_eq_none {clock : Word} {kind delay onTime period : Byte} :
    orderedDrive clock kind delay onTime period = none ↔ 2 < kind.toNat ∧ ¬PulseInRange kind onTime period := by
  rw [orderedDrive, ← driveOfByte_eq_none]
  cases driveOfByte kind with
  | some d => simp
  | none => simp

/-- The handle of a command with arguments in range: each check of its arguments passes. -/
theorem orderedDrive_of_inRange {clock : Word} {kind delay onTime period : Byte}
    (h : kind.toNat ≤ 2 ∨ PulseInRange kind onTime period) :
    ∃ d, orderedDrive clock kind delay onTime period = some d := by
  cases hd : orderedDrive clock kind delay onTime period with
  | some d => exact ⟨d, rfl⟩
  | none =>
    obtain ⟨hkind, htiming⟩ := orderedDrive_eq_none.1 hd
    exact absurd (h.resolve_left (by omega)) htiming

theorem toNat_lt_of_getLsbD {b : Byte} (h6 : b.getLsbD 6 = false) (h7 : b.getLsbD 7 = false) : b.toNat < 64 := by
  refine Nat.lt_pow_two_of_testBit (n := 6) _ fun i hi => ?_
  by_cases h : i < 8
  · interval_cases i
    · exact h6
    · exact h7
  · exact BitVec.getLsbD_of_ge b i (Nat.le_of_not_lt h)

theorem badKinds_eq_false {kinds : Byte} (h : badKinds kinds = false) : kinds ≠ 0 ∧ ¬64 ≤ kinds.toNat := by
  simp only [badKinds, Bool.or_eq_false_iff, beq_eq_false_iff_ne] at h
  obtain ⟨⟨hne, h6⟩, h7⟩ := h
  exact ⟨hne, Nat.not_le.2 (toNat_lt_of_getLsbD h6 h7)⟩

theorem newTermInRange_iff {t : Ticks} : newTermInRange t = true ↔ t = 0 ∨ 8 ≤ t.toNat := by
  rw [newTermInRange, decide_eq_true_eq]
  rfl

/-- The handle that the engine checks, where the arguments that need no record are in range (R9). -/
theorem Request.handle_cases {r : Request} {h : Handle} (hr : r.handle = some h) :
    (∃ t, r = .renew h t ∧ newTermInRange t = true) ∨ r = .release h ∨ r = .cancel h ∨ r = .query h ∨ r = .revoke h
      ∨ (∃ set kind delay onTime period, r = .drive h set kind delay onTime period ∧ set ≠ 0
          ∧ ∀ clock, ∃ d, orderedDrive clock kind delay onTime period = some d)
      ∨ ∃ kinds, r = .ack h.slot h.gen kinds ∧ badKinds kinds = false ∧ h.slot ≠ 0xFF ∧ kinds.getLsbD 5 = false := by
  cases r with
  | renew h' t =>
    obtain ⟨hrange, hh⟩ := Option.ite_none_right_eq_some.1 hr
    cases hh
    exact .inl ⟨t, rfl, newTermInRange_iff.2 hrange⟩
  | release h' => cases hr; simp
  | cancel h' => cases hr; simp
  | query h' => cases hr; simp
  | revoke h' => cases hr; simp
  | drive h' set kind delay onTime period =>
    obtain ⟨⟨hset, hrange⟩, hh⟩ := Option.ite_none_right_eq_some.1 hr
    cases hh
    exact .inr (.inr (.inr (.inr (.inr (.inl ⟨set, kind, delay, onTime, period, rfl, hset, fun _ =>
      orderedDrive_of_inRange hrange⟩)))))
  | ack target gen kinds =>
    obtain ⟨⟨htarget, hne, hlt⟩, hh⟩ := Option.ite_none_right_eq_some.1 hr
    cases hh
    obtain ⟨hbad, hbit⟩ := badKinds_of_slotKinds hne hlt
    exact .inr (.inr (.inr (.inr (.inr (.inr ⟨kinds, rfl, hbad, htarget, hbit⟩)))))
  | _ => cases hr

/-- R9: a request whose handle fails a check is refused as the check says. -/
theorem State.taken_of_checkHandle_refused {s : State} {p : Port} {r : Request} {h : Handle} {st : Status}
    (hr : r.handle = some h) (hc : s.checkHandle (r.claimant p) h = .refused st) :
    s.taken p r = s.refuse p r.command { status := st } := by
  obtain ⟨t, rfl, ht⟩ | rfl | rfl | rfl | rfl | ⟨set, kind, delay, onTime, period, rfl, hset, hd⟩
    | ⟨kinds, rfl, hbad, htarget, hbit⟩ := Request.handle_cases hr
  case inl =>
    change s.checkHandle (some p) h = _ at hc
    simp only [State.taken, State.takeRenew, ht, hc]
    rfl
  case inr.inl =>
    change s.checkHandle (some p) h = _ at hc
    simp only [State.taken, State.takeRelease, hc]
    rfl
  case inr.inr.inl =>
    change s.checkHandle (some p) h = _ at hc
    simp only [State.taken, State.takeCancel, hc]
    rfl
  case inr.inr.inr.inl =>
    change s.checkHandle (some p) h = _ at hc
    simp only [State.taken, State.takeQuery, hc]
    rfl
  case inr.inr.inr.inr.inl =>
    change s.checkHandle none h = _ at hc
    simp only [State.taken, State.takeRevoke, hc]
    rfl
  case inr.inr.inr.inr.inr.inl =>
    change s.checkHandle (some p) h = _ at hc
    obtain ⟨d, hd⟩ := hd s.clock.count
    simp only [State.taken, State.takeDrive, hd, if_neg hset, hc]
    rfl
  case inr.inr.inr.inr.inr.inr =>
    change s.checkHandle (some p) h = _ at hc
    simp only [State.taken, State.takeAck, hbad, htarget, hbit, hc]
    rfl

/-! ## The states that a command does not take (R16) -/

/-- The table after R16: the state of the lease does not take the command. -/
theorem State.taken_of_stateRefused {s : State} {p : Port} {r : Request} {h : Handle} {i : Fin 16} {l : Lease}
    (hr : r.handle = some h) (hc : s.checkHandle (r.claimant p) h = .current i l)
    (hstate : r.stateRefused l.state = true) : s.taken p r = s.refuse p r.command (stateAnswer l) := by
  have hphase : l.state = (match l.phase with
      | .waiting _ => LeaseState.waiting
      | .active _ => .active
      | .yielding _ _ => .yielding
      | .ended _ _ => .ended) := by
    cases hp : l.phase <;> simp only [Lease.state, hp]
  rw [hphase] at hstate
  obtain ⟨t, rfl, ht⟩ | rfl | rfl | rfl | rfl | ⟨set, kind, delay, onTime, period, rfl, hset, hd⟩
    | ⟨kinds, rfl, -⟩ := Request.handle_cases hr
  case inl =>
    change s.checkHandle (some p) h = _ at hc
    cases hp : l.phase <;> rw [hp] at hstate <;> cases hstate
    all_goals
      simp only [State.taken, State.takeRenew, ht, hc, hp]
      rfl
  case inr.inl =>
    change s.checkHandle (some p) h = _ at hc
    cases hp : l.phase <;> rw [hp] at hstate <;> cases hstate
    all_goals
      simp only [State.taken, State.takeRelease, hc, hp]
      rfl
  case inr.inr.inl =>
    change s.checkHandle (some p) h = _ at hc
    cases hp : l.phase <;> rw [hp] at hstate <;> cases hstate
    all_goals
      simp only [State.taken, State.takeCancel, hc, Lease.isWaiting, hp]
      rfl
  case inr.inr.inr.inl => cases hp : l.phase <;> rw [hp] at hstate <;> cases hstate
  case inr.inr.inr.inr.inl =>
    change s.checkHandle none h = _ at hc
    cases hp : l.phase <;> rw [hp] at hstate <;> cases hstate
    all_goals
      simp only [State.taken, State.takeRevoke, hc, Lease.isEnded, hp]
      rfl
  case inr.inr.inr.inr.inr.inl =>
    change s.checkHandle (some p) h = _ at hc
    obtain ⟨d, hd⟩ := hd s.clock.count
    cases hp : l.phase <;> rw [hp] at hstate <;> cases hstate
    all_goals
      simp only [State.taken, State.takeDrive, hd, if_neg hset, hc, Lease.holding, hp]
      rfl
  case inr.inr.inr.inr.inr.inr => cases hp : l.phase <;> rw [hp] at hstate <;> cases hstate

end Sys2Proof.Machine

open Sys2Proof Sys2Proof.Machine

/-- Settles O33: each check in its place. -/
theorem handleChecksInOrder : Obligations.HandleChecksInOrder := by
  intro s p r h hn hr hy ha answers
  have refused : ∀ st, s.checkHandle (r.claimant p) h = .refused st → answers st := fun st hc =>
    exec_of_refuse hn hy ha (State.taken_of_checkHandle_refused hr hc)
  refine ⟨fun hslot => refused _ (State.checkHandle_range hslot), fun i hi => ⟨fun hstale => ?_, fun l hc hp hne => ?_⟩⟩
  · exact refused _ (State.checkHandle_stale hi hstale)
  · refine refused _ ?_
    rw [Request.claimant, if_neg hne]
    exact State.checkHandle_notHolder hc hp

/-- Settles O34: the table after R16, and the two further refusals of a RENEW. -/
theorem stateRefusalsChangeNothing : Obligations.StateRefusalsChangeNothing := by
  intro s p r h i l hn hr hc hp hy ha answers
  have hcheck := State.checkHandle_claimant hc hp
  refine ⟨fun hstate => exec_of_refuse hn hy ha (State.taken_of_stateRefused hr hcheck hstate),
    fun hrenew g d hphase => ?yielding, fun hrenew g c hphase hcap hfull => ?limit⟩
  case yielding =>
    refine exec_of_refuse hn hy ha ?_
    cases r with
    | renew h' t =>
      obtain ⟨hrange, hh⟩ := Option.ite_none_right_eq_some.1 hr
      cases hh
      change s.checkHandle (some p) h = _ at hcheck
      simp only [State.taken, State.takeRenew, newTermInRange_iff.2 hrange, hcheck, hphase]
      rfl
    | _ => cases hrenew
  case limit =>
    refine exec_of_refuse hn hy ha ?_
    cases r with
    | renew h' t =>
      obtain ⟨hrange, hh⟩ := Option.ite_none_right_eq_some.1 hr
      cases hh
      change s.checkHandle (some p) h = _ at hcheck
      have hbelow : l.belowCap g.count = false := by
        rw [Lease.belowCap, hcap]
        exact decide_eq_false (Nat.not_lt.2 hfull)
      simp only [State.taken, State.takeRenew, newTermInRange_iff.2 hrange, hcheck, hphase, hbelow]
      rfl
    | _ => cases hrenew

/-- Settles O59: the checks that come before the handle's. -/
theorem argumentsOutOfRangeAreRefused : Obligations.ArgumentsOutOfRangeAreRefused := by
  intro s p hy ha refused
  refine ⟨fun h t hne hlt hn => ?renew, fun h set kind delay onTime period hbad hn => ?drive,
    fun target gen kinds hbad hn => ?ack⟩
  case renew =>
    refine exec_of_refuse hn hy ha ?_
    have hrange : newTermInRange t = false := by
      rw [Bool.eq_false_iff, Ne, newTermInRange_iff]
      exact not_or.2 ⟨hne, Nat.not_le.2 hlt⟩
    simp only [State.taken, State.takeRenew, hrange]
    rfl
  case drive =>
    refine exec_of_refuse hn hy ha ?_
    cases hd : orderedDrive s.clock.count kind delay onTime period with
    | none =>
      simp only [State.taken, State.takeDrive, hd]
      rfl
    | some d =>
      have hset : set = 0 := by
        refine hbad.resolve_right fun hbad => absurd (orderedDrive_eq_none.2 ?_) (by rw [hd]; nofun)
        obtain hkind | ⟨hkind, htiming⟩ := hbad
        · refine ⟨by omega, ?_⟩
          rintro ⟨rfl | rfl, -⟩ <;> revert hkind <;> decide
        · refine ⟨by obtain rfl | rfl := hkind <;> decide, ?_⟩
          rintro ⟨-, hon, hperiod, hlt⟩
          obtain h | h | h := htiming
          · exact hon h
          · omega
          · omega
      simp only [State.taken, State.takeDrive, hd, hset, if_true]
      rfl
  case ack =>
    refine exec_of_refuse hn hy ha ?_
    cases hkinds : badKinds kinds with
    | true =>
      simp only [State.taken, State.takeAck, hkinds]
      rfl
    | false =>
      have hsmall := badKinds_eq_false hkinds
      by_cases htarget : target = 0xFF
      · have hother : kinds ≠ 0x20 := by
          obtain h | h | h | h := hbad
          · exact absurd h hsmall.1
          · exact absurd h hsmall.2
          · exact absurd htarget h.1
          · exact h.2
        simp only [State.taken, State.takeAck, hkinds, htarget, ne_eq, hother, not_false_eq_true, if_true]
        rfl
      · have hbit : kinds.getLsbD 5 = true := by
          obtain h | h | h | h := hbad
          · exact absurd h hsmall.1
          · exact absurd h hsmall.2
          · exact h.2
          · exact absurd h.1 htarget
        simp only [State.taken, State.takeAck, hkinds, htarget, hbit]
        rfl

end

section
/-! SUPPORT. The checks of an ACQUIRE and what blocks it, in the statements' terms (R24 to R31). -/

namespace Sys2Proof.Machine

variable (s : State)

/-! ## The first check (R25) -/

theorem AcquireArgs.claimLevel_eq_some {a : AcquireArgs} {level : Fin 4} (h : a.level.toNat = level.val) :
    a.claimLevel = some level := by
  rw [AcquireArgs.claimLevel, dif_pos (h ▸ level.isLt)]
  exact congrArg some (Fin.ext h)

theorem AcquireArgs.claimLevel_eq_none {a : AcquireArgs} : a.claimLevel = none ↔ 3 < a.level.toNat := by
  rw [AcquireArgs.claimLevel]
  split
  · exact ⟨nofun, fun h => by omega⟩
  · exact ⟨fun _ => by omega, fun _ => rfl⟩

theorem AcquireArgs.renewalSource_eq (a : AcquireArgs) : a.renewalSource =
    if a.options.getLsbD 2 = true then if h : a.source.toNat < 4 then some ⟨a.source.toNat, h⟩ else none else none := by
  rw [AcquireArgs.renewalSource, AcquireArgs.sourceByte]
  cases a.options.getLsbD 2 <;> rfl

/-- R25, item by item. -/
theorem AcquireArgs.outOfRange_iff (a : AcquireArgs) : a.outOfRange = true ↔ AcquireOutOfRange a := by
  have hlevel : a.claimLevel.isNone = true ↔ 3 < a.level.toNat := by
    rw [Option.isNone_iff_eq_none, AcquireArgs.claimLevel_eq_none]
  have hmode : (!(a.isTry || a.isWait)) = true ↔ a.mode ≠ 1 ∧ a.mode ≠ 2 := by
    simp [AcquireArgs.isTry, AcquireArgs.isWait]
  have hlimit : (a.limit.isSome && a.isTry) = true ∨ (a.limit == some 0) = true ↔
      a.options.getLsbD 1 = true ∧ (a.mode = 1 ∨ a.waitLimit = 0) := by
    unfold AcquireArgs.limit
    cases a.options.getLsbD 1 <;> simp [AcquireArgs.isTry]
  have hcap : (a.renewalCap == some 0) = true ↔ a.options.getLsbD 3 = true ∧ a.cap = 0 := by
    unfold AcquireArgs.renewalCap
    cases a.options.getLsbD 3 <;> simp
  have hsource : (a.sourceByte.isSome && a.renewalSource.isNone) = true ↔
      a.options.getLsbD 2 = true ∧ 3 < a.source.toNat := by
    rw [AcquireArgs.renewalSource_eq, AcquireArgs.sourceByte]
    cases a.options.getLsbD 2
    · simp
    · by_cases h : a.source.toNat < 4 <;> simp [h] <;> omega
  rw [AcquireArgs.outOfRange]
  simp only [Bool.or_eq_true, beq_iff_eq, decide_eq_true_eq, hlevel, hmode, hcap, hsource] at hlimit ⊢
  rw [AcquireOutOfRange, ← hlimit]
  simp only [or_assoc]
  rfl

theorem AcquireArgs.exists_claimLevel {a : AcquireArgs} (h : ¬AcquireOutOfRange a) :
    ∃ level, a.claimLevel = some level ∧ a.level.toNat = level.val := by
  cases hl : a.claimLevel with
  | none => exact absurd (.inr (.inr (.inl (AcquireArgs.claimLevel_eq_none.1 hl)))) h
  | some level =>
    refine ⟨level, rfl, ?_⟩
    rw [AcquireArgs.claimLevel] at hl
    split at hl <;> cases hl
    rfl

/-! ## The later checks (R26 to R28) -/

theorem State.openTo_iff {s : State} {p : Port} {lines : LineSet} :
    s.openTo p lines = true ↔ ¬SomeLineClosed s p lines := by
  rw [State.openTo, List.all_eq_true]
  constructor
  · rintro h ⟨m, hm, hclosed⟩
    have := h m (mem_allLines m)
    rw [hm, hclosed] at this
    cases this
  · intro h m _
    cases hm : lines.getLsbD m.val
    · rfl
    · cases haccess : (s.line m).access.getLsbD (portBit p)
      · exact absurd ⟨m, hm, haccess⟩ h
      · rfl

theorem find?_allSlots {f : Fin 16 → Bool} {i : Fin 16} (hi : f i = true) (hfirst : ∀ j < i, f j = false) :
    allSlots.find? f = some i := by
  have hsorted : allSlots.Pairwise (· < ·) := by decide
  obtain ⟨front, back, hsplit⟩ := List.append_of_mem (mem_allSlots i)
  refine List.find?_eq_some_iff_append.2 ⟨hi, front, back, hsplit, fun j hj => ?_⟩
  rw [hsplit] at hsorted
  rw [hfirst j ((List.pairwise_append.1 hsorted).2.2 j hj i List.mem_cons_self)]
  rfl

/-- The slot stands in the way of a claim (R27). -/
def State.standsSelf (s : State) (p : Port) (lines : LineSet) (i : Fin 16) : Bool :=
  match s.leaseAt i with
  | some l => l.holder == p && l.live && intersects l.lines lines
  | none => false

theorem State.selfConflict_eq (p : Port) (lines : LineSet) :
    s.selfConflict p lines = allSlots.find? (s.standsSelf p lines) := rfl

theorem State.standsSelf_iff {s : State} {p : Port} {lines : LineSet} {i : Fin 16} :
    s.standsSelf p lines i = true ↔ SelfAt s p lines i := by
  rw [State.standsSelf]
  cases hl : s.leaseAt i with
  | none => simp [SelfAt, hl]
  | some l => simp [SelfAt, hl, Lease.live, intersects, and_assoc]

theorem State.selfConflict_of_first {s : State} {p : Port} {lines : LineSet} {i : Fin 16} (hi : SelfAt s p lines i)
    (hfirst : ∀ j : Fin 16, j < i → ¬SelfAt s p lines j) : s.selfConflict p lines = some i := by
  rw [State.selfConflict_eq]
  refine find?_allSlots (State.standsSelf_iff.2 hi) fun j hj => ?_
  rw [Bool.eq_false_iff, Ne, State.standsSelf_iff]
  exact hfirst j hj

theorem State.selfConflict_of_none {s : State} {p : Port} {lines : LineSet}
    (h : ∀ i : Fin 16, ¬SelfAt s p lines i) : s.selfConflict p lines = none := by
  rw [State.selfConflict_eq, List.find?_eq_none]
  intro i _
  rw [State.standsSelf_iff]
  exact h i

theorem State.lowestFree_of {s : State} {i : Fin 16} (h : LowestFree s i) : s.lowestFree = some i := by
  obtain ⟨hi, hfirst⟩ := h
  refine find?_allSlots ?_ fun j hj => ?_
  · rw [← State.leaseAt, hi]
    rfl
  · rw [← State.leaseAt]
    cases hl : s.leaseAt j with
    | none => exact absurd hl (hfirst j hj)
    | some l => rfl

theorem State.lowestFree_eq_none {s : State} (h : ∀ i : Fin 16, s.leaseAt i ≠ none) : s.lowestFree = none := by
  rw [State.lowestFree, List.find?_eq_none]
  intro i _
  rw [← State.leaseAt]
  cases hl : s.leaseAt i with
  | none => exact absurd hl (h i)
  | some l => exact nofun

/-- The checks of R24 that follow the first one. -/
def State.laterChecks (s : State) (p : Port) (a : AcquireArgs) (level : Fin 4) : Except Answer (Fin 4 × Fin 16) :=
  if (s.port p).ceiling < level then .error { status := .level }
  else if !s.openTo p a.lines then .error { status := .denied }
  else
    match s.selfConflict p a.lines with
    | some i => .error { status := .self, data := s.handleBytes i }
    | none =>
      if (s.port p).quota ≤ s.slotUse p then
        .error { status := .quota
                 data := [BitVec.ofNat 8 (s.port p).quota, BitVec.ofNat 8 (s.slotUse p)] }
      else
        match s.lowestFree with
        | none => .error { status := .full }
        | some i => .ok (level, i)

section Checks

variable {s : State} {p : Port} {a : AcquireArgs} {level : Fin 4} {i : Fin 16}

theorem State.checkAcquire_range (h : AcquireOutOfRange a) : s.checkAcquire p a = .error { status := .range } := by
  rw [State.checkAcquire, if_pos (a.outOfRange_iff.2 h)]

theorem State.checkAcquire_of_inRange (h : ¬AcquireOutOfRange a) (hlevel : a.claimLevel = some level) :
    s.checkAcquire p a = s.laterChecks p a level := by
  rw [State.checkAcquire, if_neg (fun hbad => h (a.outOfRange_iff.1 hbad))]
  simp only [hlevel]
  rfl

theorem State.checkAcquire_of_passes (hpass : AcquirePasses s p a) (hlevel : a.level.toNat = level.val)
    (hi : s.lowestFree = some i) : s.checkAcquire p a = .ok (level, i) := by
  obtain ⟨hrange, hceiling, hopen, hself, hquota, -⟩ := hpass
  have hceiling : ¬(s.port p).ceiling < level := by
    rw [Fin.lt_def]
    omega
  rw [State.checkAcquire_of_inRange hrange (AcquireArgs.claimLevel_eq_some hlevel), State.laterChecks, if_neg hceiling,
    State.openTo_iff.2 hopen, State.selfConflict_of_none hself, hi]
  exact if_neg (Nat.not_le.2 hquota)

end Checks

/-! ## What blocks it (R29) -/

theorem State.wouldBeEligible_iff {s : State} {lines : LineSet} {level : Nat} :
    s.wouldBeEligible lines level = true ↔ ¬OrderBlocked s lines level := by
  rw [State.wouldBeEligible, List.all_eq_true]
  constructor
  · rintro h ⟨w, hw, hlevel, hlines⟩
    have := h w hw
    rw [decide_eq_true hlevel, intersects, bne_iff_ne.2 hlines] at this
    cases this
  · intro h w hw
    by_cases hlevel : level ≤ s.levelAt w
    · by_cases hlines : s.linesAt w &&& lines = 0
      · simp [intersects, hlines]
      · exact absurd ⟨w, hw, hlevel, hlines⟩ h
    · simp [hlevel]

theorem State.allFree_iff_not_lineBlocked {s : State} {lines : LineSet} :
    s.allFree lines = true ↔ ¬LineBlocked s lines := by
  rw [State.allFree_iff]
  constructor
  · rintro h ⟨m, hm, hbusy⟩
    rw [h m hm] at hbusy
    cases hbusy
  · intro h m hm
    cases hfree : (s.line m).isFree
    · exact absurd ⟨m, hm, hfree⟩ h
    · rfl

end Sys2Proof.Machine

open Sys2Proof Sys2Proof.Machine

/-- Settles O29: check by check. -/
theorem acquireChecksInOrder : Obligations.AcquireChecksInOrder := by
  intro s p a hn hy ha answers
  have refused : ∀ answer : Answer, s.checkAcquire p a = .error answer → answers answer.status answer.data :=
    fun answer hc => exec_of_refuse hn hy ha (by
      change s.takeAcquire p a = _
      rw [State.takeAcquire, hc]
      rfl)
  refine ⟨fun hbad => refused { status := .range } (State.checkAcquire_range hbad), fun hrange => ?_⟩
  obtain ⟨level, hclaim, hlevel⟩ := AcquireArgs.exists_claimLevel hrange
  have hchecks := State.checkAcquire_of_inRange (s := s) (p := p) hrange hclaim
  refine ⟨fun hceiling => refused { status := .level } ?_, fun hceiling => ?_⟩
  · rw [hchecks, State.laterChecks, if_pos (Fin.lt_def.2 (hlevel ▸ hceiling))]
  have hbelow : ¬(s.port p).ceiling < level := by
    rw [Fin.lt_def]
    omega
  rw [State.laterChecks, if_neg hbelow] at hchecks
  refine ⟨fun hclosed => refused { status := .denied } ?_, fun hopen => ?_⟩
  · rw [hchecks, if_pos]
    rw [Bool.not_eq_true', Bool.eq_false_iff, Ne, State.openTo_iff]
    exact not_not_intro hclosed
  rw [State.openTo_iff.2 hopen, if_neg (by decide)] at hchecks
  refine ⟨fun i hi hfirst => refused { status := .self, data := s.handleBytes i } ?_, fun hself => ?_⟩
  · rw [hchecks, State.selfConflict_of_first hi hfirst]
  rw [State.selfConflict_of_none hself] at hchecks
  simp only at hchecks
  refine ⟨fun hquota => refused
      { status := .quota, data := [BitVec.ofNat 8 (s.port p).quota, BitVec.ofNat 8 (s.slotUse p)] } ?_,
    fun hquota hfull => refused { status := .full } ?_⟩
  · rw [hchecks, if_pos hquota]
  · rw [hchecks, if_neg (Nat.not_le.2 hquota), State.lowestFree_eq_none hfull]

/-- Settles O30: a TRY that is not granted is refused with what blocked it. -/
theorem tryBlockedIsConflict : Obligations.TryBlockedIsConflict := by
  intro s p a hn hy ha hpass hmode answers
  obtain ⟨hrange, -, -, -, -, hsome⟩ := id hpass
  obtain ⟨level, -, hlevel⟩ := AcquireArgs.exists_claimLevel hrange
  obtain ⟨i, hi⟩ : ∃ i, s.lowestFree = some i := by
    obtain ⟨j, hj⟩ := hsome
    rw [← Option.isSome_iff_exists, State.lowestFree, List.find?_isSome]
    exact ⟨j, mem_allSlots j, by rw [← State.leaseAt, hj]; rfl⟩
  have htry : a.isTry = true := by rw [AcquireArgs.isTry, hmode]; rfl
  have blocked : ∀ ordered free : Bool, s.wouldBeEligible a.lines a.level.toNat = ordered → s.allFree a.lines = free →
      (ordered && free) = false → answers (bitAt 0 (!ordered) ||| bitAt 1 (!free)) := by
    intro ordered free hordered hfree hnot
    refine exec_of_refuse hn hy ha ?_
    change s.takeAcquire p a = _
    have hcheck : s.checkAcquire p a = .ok (level, i) := State.checkAcquire_of_passes hpass hlevel hi
    simp only [State.takeAcquire, hcheck, ← hlevel, hordered, hfree, hnot, htry]
    rfl
  refine ⟨fun horder hline => ?_, fun horder hline => ?_, fun horder hline => ?_⟩
  · exact blocked false true (by rwa [Bool.eq_false_iff, Ne, State.wouldBeEligible_iff, not_not])
      (State.allFree_iff_not_lineBlocked.2 hline) rfl
  · exact blocked true false (State.wouldBeEligible_iff.2 horder)
      (by rwa [Bool.eq_false_iff, Ne, State.allFree_iff_not_lineBlocked, not_not]) rfl
  · exact blocked false false (by rwa [Bool.eq_false_iff, Ne, State.wouldBeEligible_iff, not_not])
      (by rwa [Bool.eq_false_iff, Ne, State.allFree_iff_not_lineBlocked, not_not]) rfl

end

section
/-! SUPPORT. The events that leave the yields settled: what their answers and the attention units leave, and the
renewals and warnings among them (R50 to R56, R141, R152). -/

namespace Sys2Proof.Machine

variable (s : State)

/-! ## The attention units (R141, R142) -/

theorem Notices.any_minus_self (n m : Notices) : ((n.minus n).minus m).any = false := by
  obtain ⟨a, b, c, d, e⟩ := n
  cases a <;> cases b <;> cases c <;> cases d <;> cases e <;> rfl

/-- An event that leaves the flags of a port posted nothing to it (R142, log entry 11). -/
theorem State.freshlyPosted_of_flags {s t : State} {q : Port}
    (hflags : ∀ i, (t.slot i).flagsFor q = (s.slot i).flagsFor q)
    (hclock : (t.port q).clockFlag = true → (s.port q).clockFlag = true) : s.freshlyPosted t q = false := by
  have hclock : ((t.port q).clockFlag && !(s.port q).clockFlag) = false := by
    cases h : (t.port q).clockFlag
    · rfl
    · rw [hclock h]
      rfl
  rw [State.freshlyPosted, hclock]
  simp [hflags, Notices.any_minus_self]

/-- R141: an event that posted nothing to a port computes its ATTN_x, and begins no gap. -/
theorem State.port_attend_of_unposted {s t : State} {q : Port} (h : s.freshlyPosted t q = false) :
    (s.attend none t).port q = { t.port q with attn := t.attnLevel q } := by
  have hgap : s.startsGap t none q = false := by simp [State.startsGap, h]
  rw [State.port_attend, hgap, State.attnLevel]
  cases (t.port q).mode <;> rfl

/-- An event that leaves the flags of a port, its state and its attachment leaves the port. -/
theorem State.port_attend_of_stands {s t : State} {q : Port} (ha : AttentionLaw s)
    (hflags : ∀ i, (t.slot i).flagsFor q = (s.slot i).flagsFor q) (hport : t.port q = s.port q)
    (hreset : t.inReset = s.inReset) : (s.attend none t).port q = s.port q := by
  have hlevel : t.attnLevel q = (s.port q).attn := by
    rw [ha q, State.attnLevel, State.attnLevel, State.unmaskedPending, State.unmaskedPending,
      State.attached_congr hreset (by rw [hport]) (by rw [hport]), hport]
    simp only [hflags]
  rw [State.port_attend_of_unposted (State.freshlyPosted_of_flags hflags (by rw [hport]; exact id)), hlevel, hport]

theorem PortState.steady_self (x : PortState) : x.steady x = true := by simp [PortState.steady]

theorem State.tableStands_attend (t : State) (acked : Option Port) : TableStands t (s.attend acked t) :=
  ⟨t.slot_attend s acked, t.queue_attend s acked, t.line_attend s acked⟩

theorem State.tableStands_closed (t : State) (acked : Option Port) (p : Port) (c : Command) (a : Answer) :
    TableStands t ((s.attend acked t).respond p c a) := s.tableStands_attend t acked

/-- The attention units keep every port's settings, and so does an answer. -/
theorem State.portsSteady_closed (t : State) (acked : Option Port) (p : Port) (c : Command) (a : Answer) :
    PortsSteady t ((s.attend acked t).respond p c a) := fun q => by
  rw [State.port_respond, State.port_attend]
  split <;> simp [PortState.steady]

theorem State.portsSteady_attend (t : State) (acked : Option Port) : PortsSteady t (s.attend acked t) := fun q => by
  rw [State.port_attend]
  simp [PortState.steady]

theorem State.portsSteady_of_port_eq {s u t : State} (hport : ∀ q, u.port q = s.port q) (h : PortsSteady u t) :
    PortsSteady s t := fun q => by
  rw [← hport]
  exact h q

theorem State.buffer_attend (t : State) (acked : Option Port) (q : Port) :
    ((s.attend acked t).port q).buffer = (t.port q).buffer :=
  s.port_attend_keeps PortState.buffer (fun _ _ _ => rfl) t acked q

/-! ## Requests and events taken (R152, R155) -/

theorem aside_trans {s t u : State} (h : Aside s t) (h' : Aside t u) : Aside s u := by
  obtain ⟨hclock, hinputs, hreset, hchoices, hpending⟩ := h
  obtain ⟨hclock', hinputs', hreset', hchoices', hpending'⟩ := h'
  exact ⟨hclock'.trans hclock, hinputs'.trans hinputs, hreset'.trans hreset, hchoices'.trans hchoices,
    hpending'.trans hpending⟩

/-- R152: the attention units and an answer leave the table, what lies aside of it, the ports' settings, and the other
ports' buffers. -/
theorem State.reads_closed (t : State) (acked : Option Port) (p : Port) (c : Command) (a : Answer) :
    TableStands t ((s.attend acked t).respond p c a) ∧ Aside t ((s.attend acked t).respond p c a)
      ∧ PortsSteady t ((s.attend acked t).respond p c a)
      ∧ Answered t ((s.attend acked t).respond p c a) p c a.status a.data := by
  refine ⟨s.tableStands_closed t acked p c a,
    State.aside_respond (State.aside_attend ⟨rfl, rfl, rfl, rfl, rfl⟩ s acked) p c a, s.portsSteady_closed t acked p c a,
    rfl, by rw [State.port_respond, if_pos rfl], fun q hq => ?_⟩
  rw [State.port_respond, if_neg hq, State.buffer_attend]

/-- R152: what the event of a request leaves: its own changes and what is settled of them, and the answer. -/
theorem exec_of_conclude {s u : State} {p : Port} {r : Request} {scan : Bool} {answer : State → Answer}
    (hn : s.nextRequest = some (p, r)) (h : s.taken p r = s.conclude p r.command scan u answer) :
    ∃ t, exec r.instr s = .next t ∧ TableStands (u.settle scan).1 t ∧ Aside u t ∧ PortsSteady u t
      ∧ Answered u t p r.command (answer (u.settle scan).1).status (answer (u.settle scan).1).data := by
  obtain ⟨htable, haside, hsteady, hpointer, hanswer, hothers⟩ :=
    s.reads_closed (u.settle scan).1 none p r.command (answer (u.settle scan).1)
  refine ⟨_, (exec_instr_of_nextRequest hn).trans (congrArg _ h), htable,
    aside_trans (onlyTable_settle u scan).aside haside,
    State.portsSteady_of_port_eq (fun q => u.port_settle scan q) hsteady, hpointer, hanswer,
    fun q hq => (hothers q hq).trans (by rw [State.port_settle])⟩

/-- R152: an event that changes the table, the queue and the lines alone. -/
theorem OnlyTable.exec_of_conclude {s u : State} (honly : OnlyTable s u) {p : Port} {r : Request} {scan : Bool}
    {answer : State → Answer} (hn : s.nextRequest = some (p, r))
    (h : s.taken p r = s.conclude p r.command scan u answer) :
    ∃ t, exec r.instr s = .next t ∧ TableStands (u.settle scan).1 t ∧ Aside s t ∧ PortsSteady s t
      ∧ Answered s t p r.command (answer (u.settle scan).1).status (answer (u.settle scan).1).data := by
  obtain ⟨t, hexec, htable, haside, hsteady, hpointer, hanswer, hothers⟩ := Machine.exec_of_conclude hn h
  exact ⟨t, hexec, htable, aside_trans honly.aside haside, State.portsSteady_of_port_eq honly.port hsteady, hpointer,
    hanswer, fun q hq => (hothers q hq).trans (by rw [honly.port])⟩

theorem State.conclude_settled {s u : State} (hy : YieldLaw u) (p : Port) (c : Command) (answer : State → Answer) :
    s.conclude p c false u answer = (s.attend none u).respond p c (answer u) := by
  rw [State.conclude, u.settle_of_yieldLaw hy]

theorem State.engineEvent_settled {s u : State} (hy : YieldLaw u) : s.engineEvent false u = s.attend none u := by
  rw [State.engineEvent, u.settle_of_yieldLaw hy]

/-- R155: what an event of the engine that is no request leaves. -/
theorem State.reads_of_engineEvent (u : State) (scan : Bool) :
    TableStands (u.settle scan).1 (s.engineEvent scan u) ∧ Aside u (s.engineEvent scan u)
      ∧ PortsSteady u (s.engineEvent scan u) ∧ Unanswered u (s.engineEvent scan u) := by
  refine ⟨s.tableStands_attend _ _, State.aside_attend (onlyTable_settle u scan).aside _ _,
    State.portsSteady_of_port_eq (fun q => by rw [State.port_settle]) (s.portsSteady_attend _ _), ?_, fun q => ?_⟩
  · rw [State.engineEvent, State.pointer_attend, (onlyTable_settle u scan).pointer]
  · rw [State.engineEvent, State.buffer_attend, State.port_settle]

theorem OnlyTable.reads_of_engineEvent {s u : State} (h : OnlyTable s u) (scan : Bool) :
    TableStands (u.settle scan).1 (s.engineEvent scan u) ∧ Aside s (s.engineEvent scan u)
      ∧ PortsSteady s (s.engineEvent scan u) ∧ Unanswered s (s.engineEvent scan u) := by
  obtain ⟨htable, haside, hsteady, hpointer, hbuffer⟩ := s.reads_of_engineEvent u scan
  exact ⟨htable, aside_trans h.aside haside, State.portsSteady_of_port_eq h.port hsteady, hpointer.trans h.pointer,
    fun q => (hbuffer q).trans (by rw [h.port])⟩

/-- R68: an event that leaves the board, and which leases are ACTIVE and YIELDING, leaves the yields settled. -/
theorem SameBoard.yieldLaw_of_states {s t : State} (h : SameBoard s t)
    (hstate : ∀ j, (t.leaseAt j).map Lease.state = (s.leaseAt j).map Lease.state) (hs : YieldLaw s) : YieldLaw t := by
  have hactive : ∀ j, t.activeAt j = s.activeAt j := fun j => by
    have := hstate j
    rw [State.activeAt, State.activeAt]
    cases ht : t.leaseAt j <;> cases hl : s.leaseAt j <;> rw [ht, hl] at this <;> simp_all
  have hyielding : ∀ j, t.yieldingAt j = s.yieldingAt j := fun j => by
    have := hstate j
    rw [State.yieldingAt, State.yieldingAt]
    cases ht : t.leaseAt j <;> cases hl : s.leaseAt j <;> rw [ht, hl] at this <;> simp_all
  exact yieldLaw_of_calledOn h.calledOn (fun j hj => by rwa [← hactive]) (fun j hj => by rwa [← hyielding]) hs

/-! ## Changes of one lease -/

theorem Slot.with_lease {x : Slot} {o : Option Lease} (h : x.lease = o) : { x with lease := o } = x := by
  rw [← h]

theorem State.slot_updLease_self {s : State} {i : Fin 16} {l : Lease} (hl : s.leaseAt i = some l) (f : Lease → Lease) :
    (s.updLease i f).slot i = { s.slot i with lease := some (f l) } := by
  rw [State.updLease, State.slot_updSlot, if_pos rfl, ← State.leaseAt, hl]
  rfl

theorem State.slot_updLease_ne {s : State} {i j : Fin 16} (hj : j ≠ i) (f : Lease → Lease) :
    (s.updLease i f).slot j = s.slot j := by
  rw [State.updLease, State.slot_updSlot, if_neg hj]

theorem State.map_state_updLease {s : State} {i : Fin 16} {f : Lease → Lease} (hf : ∀ l, (f l).state = l.state)
    (j : Fin 16) : ((s.updLease i f).leaseAt j).map Lease.state = (s.leaseAt j).map Lease.state := by
  rw [State.leaseAt_updLease]
  split
  · rw [Option.map_map]
    exact Option.map_congr fun l _ => hf l
  · rfl

theorem Lease.state_warn (l : Lease) : l.warn.state = l.state := by
  cases hp : l.phase <;> simp [Lease.warn, Lease.state, hp]

theorem Lease.state_renew (clock : Word) (margin : Ticks) (l : Lease) : (l.renew clock margin).state = l.state := by
  cases hp : l.phase <;> simp [Lease.renew, Lease.state, hp]

theorem Lease.state_claimed (clock : Word) (margin : Ticks) (n : Fin 4) (l : Lease) :
    (l.claimed clock margin n).state = l.state := by
  unfold Lease.claimed
  split
  · split
    · exact l.state_renew _ _
    · rfl
  all_goals rfl

theorem Lease.belowCap_iff {l : Lease} {count : Byte} :
    l.belowCap count = true ↔ ∀ c, l.cap = some c → count.toNat < c.toNat := by
  unfold Lease.belowCap
  cases l.cap <;> simp

/-- R50, R53, R55: an ACTIVE lease renewed. -/
theorem Lease.renew_of_active {l : Lease} {g : Holding} (h : l.phase = .active g) (clock : Word) (margin : Ticks) :
    l.renew clock margin =
      { l with
        phase := .active
          { expiry := clock + l.term.setWidth 32, count := if g.count = 255 then 255 else g.count + 1
            warned := decide (margin ≠ 0 ∧ l.term.toNat ≤ margin.toNat) }
        flags := { l.flags with warning := decide (margin ≠ 0 ∧ l.term.toNat ≤ margin.toNat) } } := by
  simp only [Lease.renew, h]
  rfl

/-- The ticks left of a deadline set a term ahead are the term (R20). -/
theorem State.ticksLeft_ahead (t : Ticks) : s.ticksLeft (s.clock.count + t.setWidth 32) = t := by
  have h : s.clock.count + t.setWidth 32 - s.clock.count = t.setWidth 32 := by
    rw [BitVec.add_comm, BitVec.add_sub_cancel]
  rw [State.ticksLeft, State.remaining, h]
  bv_omega

theorem OnlyTable.ticksLeft {s t : State} (h : OnlyTable s t) (d : Word) : t.ticksLeft d = s.ticksLeft d := by
  rw [State.ticksLeft, State.remaining, h.clock, State.ticksLeft, State.remaining]

theorem yesNo_eq (b : Bool) : yesNo b = if b then 0x01 else 0x00 := rfl

theorem renewalsLeft_eq (cap : Option Byte) (count : Byte) :
    renewalsLeft cap count = (match cap with
      | none => 0xFF
      | some c => c - count) := by
  cases cap <;> rfl

/-- R158: the data of a RENEW, for a lease that holds. -/
theorem State.renewedData_of_holding {s : State} {i : Fin 16} {l : Lease} {g : Holding} (hl : s.leaseAt i = some l)
    (hg : l.holding = some g) :
    s.renewedData i = s.handleBytes i ++ bytes16 (s.ticksLeft g.expiry) ++ bytes16 l.term
        ++ [g.count, renewalsLeft l.cap g.count, yesNo g.warned] := by
  simp only [State.renewedData, hl, hg]

/-! ## Claims (R52) -/

theorem State.slot_claimTaken (n : Fin 4) (i : Fin 16) :
    (s.claimTaken n).slot i =
      { s.slot i with
        lease := (s.leaseAt i).map fun l => l.claimed s.clock.count (s.port l.holder).margin n } := by
  rw [State.claimTaken, State.slot_mapInputs, State.claimAll, State.slot_mapSlots]
  rfl

theorem State.leaseAt_claimTaken (n : Fin 4) (i : Fin 16) :
    (s.claimTaken n).leaseAt i =
      (s.leaseAt i).map fun l => l.claimed s.clock.count (s.port l.holder).margin n := by
  rw [State.leaseAt, State.slot_claimTaken]

theorem State.input_claimTaken (n m : Fin 4) :
    (s.claimTaken n).input m = if m = n then { s.input m with claims := (s.input m).claims - 1 } else s.input m := by
  rw [State.claimTaken, State.input_mapInputs, State.claimAll, State.input_mapSlots]

theorem State.pointer_claimTaken (n : Fin 4) : (s.claimTaken n).pointer = s.pointer := by
  rw [State.claimTaken, State.pointer_mapInputs, State.claimAll, State.pointer_mapSlots]

theorem State.line_claimTaken (n : Fin 4) (m : Fin 16) : (s.claimTaken n).line m = s.line m := by
  rw [State.claimTaken, State.line_mapInputs, State.claimAll, State.line_mapSlots]

theorem State.queue_claimTaken (n : Fin 4) : (s.claimTaken n).queue = s.queue := by
  rw [State.claimTaken, State.queue_mapInputs, State.claimAll, State.queue_mapSlots]

theorem State.yieldLaw_claimTaken {s : State} (n : Fin 4) (hy : YieldLaw s) : YieldLaw (s.claimTaken n) := by
  refine SameBoard.yieldLaw_of_states (s := s)
    (sameBoard_of_leases (fun i => ?_) (s.queue_claimTaken n) (s.line_claimTaken n)) (fun i => ?_) hy
  · rw [State.leaseAt_claimTaken, Option.map_map]
    exact Option.map_congr fun l _ => l.standing_claimed _ _ _
  · rw [State.leaseAt_claimTaken, Option.map_map]
    exact Option.map_congr fun l _ => l.state_claimed _ _ _

theorem exec_renewalClaim {s : State} {n : Fin 4} (hreset : s.inReset = false) (hclaims : 0 < (s.input n).claims) :
    exec (.renewalClaim n.val) s = .next (s.engineEvent false (s.claimTaken n)) := by
  change execRenewalClaim n.val s = _
  rw [execRenewalClaim, dif_pos n.isLt, hreset, decide_eq_true hclaims]
  exact if_pos rfl

/-- R52: what a claim makes of an ACTIVE lease that names its input below its cap, and of any other. -/
theorem Lease.claimed_of_matches {l : Lease} {g : Holding} {n : Fin 4} (hphase : l.phase = .active g)
    (hsource : l.source = some n) (hcap : ∀ c, l.cap = some c → g.count.toNat < c.toNat) (clock : Word)
    (margin : Ticks) : l.claimed clock margin n = l.renew clock margin := by
  simp [Lease.claimed, hphase, hsource, Lease.belowCap_iff.2 hcap]

theorem Lease.claimed_of_not_matches {l : Lease} {n : Fin 4}
    (h : ¬(l.state = .active ∧ l.source = some n ∧ ∀ c k, l.cap = some c → l.count = some k → k.toNat < c.toNat))
    (clock : Word) (margin : Ticks) : l.claimed clock margin n = l := by
  unfold Lease.claimed
  split
  next g hphase =>
    rw [if_neg]
    rw [Bool.and_eq_true, decide_eq_true_eq, Lease.belowCap_iff]
    rintro ⟨hsource, hcap⟩
    refine h ⟨by simp [Lease.state, hphase], hsource, fun c k hc hk => ?_⟩
    rw [Lease.count, hphase] at hk
    cases hk
    exact hcap c hc
  all_goals rfl

end Sys2Proof.Machine

open Sys2Proof Sys2Proof.Machine

/-- Settles O27: by what taking a request makes. -/
theorem everyRequestIsAnswered : Obligations.EveryRequestIsAnswered := by
  intro s p r hn
  obtain ⟨-, hpending⟩ := s.nextRequest_pending hn
  obtain ⟨u, scan, acked, a, -, -, htaken⟩ := takenAs_taken s p hpending
  refine ⟨_, Response.make r.command.code a, exec_instr_of_nextRequest hn, ?_, ?_, rfl⟩
  · rw [htaken, State.pointer_respond]
  · rw [htaken, State.port_respond, if_pos rfl]

/-- Settles O35: the renewal leaves the board and the yields, so that the event is the renewal alone. -/
theorem renewStartsFreshTerm : Obligations.RenewStartsFreshTerm := by
  intro s p h newTerm i l g hn hrange hc hp hphase hcap hy term count margin warned
  obtain ⟨-, hcheck⟩ := s.checkHandle_of_current hc
  obtain ⟨-, hl, -⟩ := id hc
  let renewed : Lease → Lease := fun l => { l with term := termAfter l newTerm }.renew s.clock.count margin
  have htaken : s.taken p (.renew h newTerm) = s.conclude p .renew false (s.updLease i renewed) fun t =>
      { status := .ok, data := t.renewedData i } := by
    rw [hp] at hcheck
    simp only [State.taken, State.takeRenew, newTermInRange_iff.2 hrange, hcheck, hphase, Lease.belowCap_iff.2 hcap]
    rfl
  have hyield : YieldLaw (s.updLease i renewed) :=
    (sameBoard_updLease s i renewed fun l => by simp [renewed]).yieldLaw_of_states
      (State.map_state_updLease fun l => Lease.state_renew _ _ _) hy
  have honly := onlyTable_updLease s i renewed
  have hreads := honly.exec_of_conclude hn htaken
  rw [State.settle_of_yieldLaw _ hyield] at hreads
  obtain ⟨t, hexec, ⟨hslots, hqueue, hlines⟩, haside, hsteady, hanswered⟩ := hreads
  have hrenewed : renewed l = { l with
      term := term
      phase := .active { expiry := s.clock.count + term.setWidth 32, count := count, warned := warned }
      flags := { l.flags with warning := warned } } :=
    Lease.renew_of_active (l := { l with term := term }) hphase s.clock.count margin
  have hslot := State.slot_updLease_self hl renewed
  rw [hrenewed] at hslot
  have hhandle : (s.updLease i renewed).handleBytes i = [h.slot, h.gen] := by
    rw [← State.handleBytes_of_current s hc, State.handleBytes, State.gen_updLease, State.handleBytes]
  refine ⟨t, hexec, (hslots i).trans hslot, fun j hj => (hslots j).trans (State.slot_updLease_ne hj renewed),
    hlines, hqueue, haside, hsteady, ?_⟩
  have hdata := State.renewedData_of_holding (congrArg Slot.lease hslot) rfl
  rw [hhandle, honly.ticksLeft, State.ticksLeft_ahead, renewalsLeft_eq, yesNo_eq] at hdata
  rwa [hdata] at hanswered

/-- Settles O36: a claim leaves the board and the yields, so that the event is the renewals alone. -/
theorem claimRenewsEveryMatchingLease : Obligations.ClaimRenewsEveryMatchingLease := by
  intro s n hreset hclaims hy
  obtain ⟨⟨hslots, hqueue, hlines⟩, ⟨hclock, hinputs, -⟩, hsteady, hpointer, hbuffer⟩ :=
    s.reads_of_engineEvent (s.claimTaken n) false
  rw [State.settle_of_yieldLaw _ (State.yieldLaw_claimTaken n hy)] at hslots hqueue hlines
  have hinput : ∀ m, (s.engineEvent false (s.claimTaken n)).input m = (s.claimTaken n).input m := fun m => by
    rw [State.input, hinputs, State.input]
  refine ⟨_, exec_renewalClaim hreset hclaims,
    fun i => ⟨fun hnone => ?_, fun l hl => ⟨fun g hphase hsource hcap => ?_, fun hnot => ?_⟩⟩,
    fun m => (hlines m).trans (s.line_claimTaken n m), hqueue.trans (s.queue_claimTaken n),
    ⟨hpointer.trans (s.pointer_claimTaken n), fun q => (hbuffer q).trans (by rw [State.port_claimTaken])⟩,
    State.portsSteady_of_port_eq (s.port_claimTaken n) hsteady, hclock.trans (s.clock_claimTaken n), ?_, fun m => ?_,
    fun m hm => ?_⟩
  · rw [hslots, State.slot_claimTaken, hnone]
    exact Slot.with_lease hnone
  · intro margin warned
    rw [hslots, State.slot_claimTaken, hl, Option.map_some, Lease.claimed_of_matches hphase hsource hcap,
      Lease.renew_of_active hphase]
  · rw [hslots, State.slot_claimTaken, hl, Option.map_some, Lease.claimed_of_not_matches hnot]
    exact Slot.with_lease hl
  · rw [hinput, State.input_claimTaken, if_pos rfl]
  · rw [hinput, State.input_claimTaken]
    split <;> rfl
  · rw [hinput, State.input_claimTaken, if_neg hm]

/-- Settles O41: a warning leaves the board and the yields, so that the event is the warning alone. -/
theorem warningEventWarnsOnce : Obligations.WarningEventWarnsOnce := by
  intro s i l g hreset hl hholding hunwarned hmargin hleft hy
  have hdue : s.warningDue i = true := by
    have hunequal : decide ((s.port l.holder).margin ≠ 0) = true := decide_eq_true hmargin
    have hclose : decide ((s.remaining g.expiry).toNat ≤ (s.port l.holder).margin.toNat) = true := decide_eq_true hleft
    simp only [State.warningDue, hl, State.warningCondition, hholding, hunwarned, hunequal, hclose]
    rfl
  have hyield : YieldLaw (s.updLease i Lease.warn) :=
    (sameBoard_updLease s i Lease.warn Lease.standing_warn).yieldLaw_of_states
      (State.map_state_updLease Lease.state_warn) hy
  have hexec : exec (.warningEvent i.val) s = .next (s.engineEvent false (s.updLease i Lease.warn)) := by
    change execWarningEvent i.val s = _
    rw [execWarningEvent, dif_pos i.isLt, hreset, hdue]
    exact if_pos rfl
  obtain ⟨⟨hslots, hqueue, hlines⟩, haside, hsteady, hunanswered⟩ :=
    (onlyTable_updLease s i Lease.warn).reads_of_engineEvent false
  rw [State.settle_of_yieldLaw _ hyield] at hslots hqueue hlines
  refine ⟨_, hexec, ⟨l.warn, (hslots i).trans (State.slot_updLease_self hl _), ?_⟩,
    fun j hj => (hslots j).trans (State.slot_updLease_ne hj _), hlines, hqueue, haside, hsteady, hunanswered⟩
  cases hp : l.phase with
  | active g' =>
    have hwarn : l.warn = { l with
        phase := .active { g' with warned := true }, flags := { l.flags with warning := true } } := by
      simp only [Lease.warn, hp]
    rw [Lease.holding, hp] at hholding
    cases hholding
    rw [hwarn, ← hp]
    exact ⟨rfl, rfl, by rw [Lease.state, Lease.state, hp], by rw [Lease.yieldDeadline, Lease.yieldDeadline, hp], rfl⟩
  | yielding g' d =>
    have hwarn : l.warn = { l with
        phase := .yielding { g' with warned := true } d, flags := { l.flags with warning := true } } := by
      simp only [Lease.warn, hp]
    rw [Lease.holding, hp] at hholding
    cases hholding
    rw [hwarn, ← hp]
    exact ⟨rfl, rfl, by rw [Lease.state, Lease.state, hp], by rw [Lease.yieldDeadline, Lease.yieldDeadline, hp], rfl⟩
  | waiting d | ended n c =>
    rw [Lease.holding, hp] at hholding
    cases hholding

end

section
/-! SUPPORT. The configuration commands: SET_LINE, SET_PORT, MASK and SET_HEARTBEAT (R102, R113, R140, R163). -/

namespace Sys2Proof.Machine

variable (s : State)

/-! ## Settings (R156) -/

theorem Setting.bad_read {α : Type} {kept : Bool} {v : Option α} :
    (Setting.read kept v).bad = true ↔ kept = false ∧ v = none := by
  cases kept <;> cases v <;> simp [Setting.read, Setting.bad]

theorem Setting.over_read_eq {α : Type} {kept : Bool} {v : Option α} {x y : α} (h : kept = false → v = some y) :
    (Setting.read kept v).over x = if kept then x else y := by
  cases kept with
  | true => rfl
  | false =>
    rw [h rfl]
    rfl

theorem eq_of_toNat {b : Byte} {n : Nat} (h : b.toNat = n) : b = BitVec.ofNat 8 n :=
  BitVec.eq_of_toNat_eq (by rw [h, BitVec.toNat_ofNat, Nat.mod_eq_of_lt (h ▸ b.isLt)])

theorem driveOfByte_of_le {b : Byte} (h : b.toNat ≤ 2) :
    driveOfByte b = some (if b = 0 then .low else if b = 1 then .high else .off) := by
  have hb : b = 0 ∨ b = 1 ∨ b = 2 := by
    obtain h | h | h : b.toNat = 0 ∨ b.toNat = 1 ∨ b.toNat = 2 := by omega
    · exact .inl (eq_of_toNat h)
    · exact .inr (.inl (eq_of_toNat h))
    · exact .inr (.inr (eq_of_toNat h))
  obtain rfl | rfl | rfl := hb <;> rfl

/-! ## SET_LINE (R102, R103) -/

/-- R103: what a line's pin drives under these rest and fault drives. -/
def Line.pinUnder (x : Line) (rest fault : Drive) : Drive :=
  match x.occ with
  | .free => rest
  | .quarantine _ => fault
  | .bound _ _ => x.current

/-- R103: the settings of a line, with their effect on its pin. -/
theorem Line.configure_eq (rest fault : Setting Drive) (qlen : Setting Byte) (access : Setting PortSet) (x : Line) :
    x.configure rest fault qlen access =
      { occ := x.occ, rest := rest.over x.rest, fault := fault.over x.fault, qlen := qlen.over x.qlen
        access := access.over x.access
        current := x.pinUnder (rest.over x.rest) (fault.over x.fault) } := by
  cases h : x.occ <;> simp [Line.configure, Line.pinUnder, h]

theorem State.yieldLaw_configureLines {s : State} {f : Fin 16 → Line → Line}
    (hf : ∀ m x, (f m x).boundSlot = x.boundSlot ∧ (f m x).isFree = x.isFree) (hy : YieldLaw s) :
    YieldLaw (s.mapLines f) :=
  (sameBoard_mapLines s f hf).yieldLaw (fun j => s.leaseAt_mapLines f j) hy

/-! ## SET_PORT (R163, R164) -/

theorem portOfByte_eq_none {b : Byte} : portOfByte b = none ↔ 3 < b.toNat := by
  unfold portOfByte
  split <;> simp_all
  omega

theorem portOfByte_portByte (q : Port) : portOfByte (portByte q) = some q := by cases q <;> rfl

theorem upTo_eq_none {limit n : Nat} : upTo limit n = none ↔ limit < n := by
  rw [upTo]
  split <;> simp_all

theorem upTo_of_le {limit n : Nat} (h : n ≤ limit) : upTo limit n = some n := if_pos h

theorem marginOf_eq_none {t : Ticks} : marginOf t = none ↔ 4095 < t.toNat := by
  rw [marginOf, Config.maxMargin]
  split <;> simp_all

theorem marginOf_of_le {t : Ticks} (h : t.toNat ≤ 4095) : marginOf t = some t := if_pos h

theorem ceilingOfByte_eq_none {b : Byte} : ceilingOfByte b = none ↔ 3 < b.toNat := by
  rw [ceilingOfByte]
  split
  · exact ⟨nofun, fun h => by omega⟩
  · exact ⟨fun _ => by omega, fun _ => rfl⟩

theorem ceilingOfByte_of_le {b : Byte} (h : b.toNat ≤ 3) : ceilingOfByte b = some (Fin.ofNat 4 b.toNat) := by
  rw [ceilingOfByte, dif_pos (by omega)]
  exact congrArg some (Fin.ext (Nat.mod_eq_of_lt (by omega)).symm)

theorem quotaTooLow_iff {kept : Bool} {n use : Nat} (h : kept = false → n ≤ Config.maxQuota) :
    quotaTooLow (Setting.read kept (upTo Config.maxQuota n)) use = true ↔ kept = false ∧ n < use := by
  cases kept with
  | true => simp [Setting.read, quotaTooLow]
  | false => simp [Setting.read, quotaTooLow, upTo_of_le (h rfl)]

/-- R164: a port under settings in range. -/
theorem PortState.configure_of_inRange {keep quota ceiling : Byte} {margin window : Ticks}
    (hquota : ¬(keep.getLsbD 0 = false ∧ 16 < quota.toNat)) (hceiling : ¬(keep.getLsbD 1 = false ∧ 3 < ceiling.toNat))
    (hmargin : ¬(keep.getLsbD 2 = false ∧ 4095 < margin.toNat))
    (hwindow : ¬(keep.getLsbD 3 = false ∧ 4095 < window.toNat)) (x : PortState) :
    x.configure (Setting.read (keep.getLsbD 0) (upTo Config.maxQuota quota.toNat))
        (Setting.read (keep.getLsbD 1) (ceilingOfByte ceiling)) (Setting.read (keep.getLsbD 2) (marginOf margin))
        (Setting.read (keep.getLsbD 3) (marginOf window)) =
      { x with
        quota := if keep.getLsbD 0 then x.quota else quota.toNat
        ceiling := if keep.getLsbD 1 then x.ceiling else Fin.ofNat 4 ceiling.toNat
        margin := if keep.getLsbD 2 then x.margin else margin
        window := if keep.getLsbD 3 then x.window else window } := by
  have inRange : ∀ {k : Bool} {n limit : Nat}, ¬(k = false ∧ limit < n) → k = false → n ≤ limit :=
    fun h hk => Nat.le_of_not_lt fun hlt => h ⟨hk, hlt⟩
  rw [PortState.configure, Setting.over_read_eq fun hk => upTo_of_le (limit := Config.maxQuota) (inRange hquota hk),
    Setting.over_read_eq fun hk => ceilingOfByte_of_le (inRange hceiling hk),
    Setting.over_read_eq fun hk => marginOf_of_le (inRange hmargin hk),
    Setting.over_read_eq fun hk => marginOf_of_le (inRange hwindow hk)]

theorem State.leaseAt_warnPort (p : Port) (i : Fin 16) :
    (s.warnPort p).leaseAt i =
      (s.leaseAt i).map fun l => if l.holder = p ∧ s.warningCondition l then l.warn else l := by
  rw [State.leaseAt, State.warnPort, State.slot_mapSlots]
  rfl

/-- The condition of R54, in the statement's terms. -/
theorem State.warningCondition_iff {s : State} {l : Lease} :
    s.warningCondition l = true ↔ ∃ g ∈ l.holding, g.warned = false ∧ (s.port l.holder).margin ≠ 0
      ∧ (g.expiry - s.clock.count).toNat ≤ (s.port l.holder).margin.toNat := by
  rw [State.warningCondition]
  cases l.holding with
  | none => simp
  | some g =>
    simp only [Option.mem_def, Option.some_inj, exists_eq_left', Bool.and_eq_true, decide_eq_true_eq,
      Bool.not_eq_true']
    exact ⟨fun ⟨⟨hmargin, hleft⟩, hwarned⟩ => ⟨hwarned, hmargin, hleft⟩,
      fun ⟨hwarned, hmargin, hleft⟩ => ⟨⟨hmargin, hleft⟩, hwarned⟩⟩

/-- R56, R164: what SET_PORT makes of a slot. -/
theorem State.slot_warnOnMargin (q : Port) (kept : Bool) (v : Option Ticks) (i : Fin 16) :
    (s.warnOnMargin q (Setting.read kept v)).slot i =
      { s.slot i with
        lease := (s.leaseAt i).map fun l =>
          if (kept = false ∧ v.isSome = true) ∧ l.holder = q ∧ s.warningCondition l = true then l.warn else l } := by
  cases kept <;> cases v <;> simp [Setting.read, State.warnOnMargin, State.warnPort] <;> rfl

theorem State.yieldLaw_warnOnMargin {s : State} (q : Port) (margin : Setting Ticks) (hy : YieldLaw s) :
    YieldLaw (s.warnOnMargin q margin) := by
  refine (sameBoard_warnOnMargin s q margin).yieldLaw_of_states (fun j => ?_) hy
  unfold State.warnOnMargin
  split
  · rw [State.leaseAt_warnPort, Option.map_map]
    refine Option.map_congr fun l _ => ?_
    change (if _ then _ else _ : Lease).state = _
    split
    · exact l.state_warn
    · rfl
  all_goals rfl

theorem State.yieldLaw_updPort {s : State} (p : Port) (f : PortState → PortState) (hy : YieldLaw s) :
    YieldLaw (s.updPort p f) := (sameBoard_of_stands (tableStands_updPort s p f)).yieldLaw (fun _ => rfl) hy

/-! ## MASK (R140) -/

theorem attnModeOfByte_eq_none {b : Byte} : attnModeOfByte b = none ↔ 1 < b.toNat := by
  unfold attnModeOfByte
  split <;> simp_all
  omega

theorem attnModeOfByte_of_le {b : Byte} (h : b.toNat ≤ 1) :
    attnModeOfByte b = some (if b = 0 then .level else .gap) := by
  have hb : b = 0 ∨ b = 1 := by
    obtain h | h : b.toNat = 0 ∨ b.toNat = 1 := by omega
    · exact .inl (eq_of_toNat h)
    · exact .inr (eq_of_toNat h)
  obtain rfl | rfl := hb <;> rfl

/-! ## SET_HEARTBEAT (R113) -/

theorem edgeOfByte_eq_none {b : Byte} : edgeOfByte b = none ↔ 2 < b.toNat := by
  unfold edgeOfByte
  split <;> simp_all
  omega

theorem edgeOfByte_of_le {b : Byte} (h : b.toNat ≤ 2) :
    edgeOfByte b = some (if b = 0 then .rising else if b = 1 then .falling else .both) := by
  have hb : b = 0 ∨ b = 1 ∨ b = 2 := by
    obtain h | h | h : b.toNat = 0 ∨ b.toNat = 1 ∨ b.toNat = 2 := by omega
    · exact .inl (eq_of_toNat h)
    · exact .inr (.inl (eq_of_toNat h))
    · exact .inr (.inr (eq_of_toNat h))
  obtain rfl | rfl | rfl := hb <;> rfl

theorem debounceOfByte_eq_none {b : Byte} : debounceOfByte b = none ↔ b = 0 ∨ 15 < b.toNat := by
  have hzero : b = 0 ↔ b.toNat = 0 := ⟨fun h => by rw [h]; rfl, eq_of_toNat⟩
  rw [debounceOfByte, hzero]
  split
  · exact ⟨nofun, fun h => by omega⟩
  · exact ⟨fun _ => by omega, fun _ => rfl⟩

theorem debounceOfByte_of_some {b : Byte} (h : ¬(b = 0 ∨ 15 < b.toNat)) : debounceOfByte b = some b.toNat := by
  cases hd : debounceOfByte b with
  | none => exact absurd (debounceOfByte_eq_none.1 hd) h
  | some n =>
    rw [debounceOfByte] at hd
    split at hd <;> cases hd
    rfl

end Sys2Proof.Machine

open Sys2Proof Sys2Proof.Machine

/-- Settles O44: a SET_LINE leaves the board and the yields, so that the event is the settings alone. -/
theorem setLineAppliesSettings : Obligations.SetLineAppliesSettings := by
  intro s p set keep rest fault qlen access hn hy ha bad code
  have hbad : (set == 0 || (Setting.read (keep.getLsbD 0) (driveOfByte rest)).bad
      || (Setting.read (keep.getLsbD 1) (driveOfByte fault)).bad) = true ↔ bad := by
    simp only [Bool.or_eq_true, beq_iff_eq, Setting.bad_read, driveOfByte_eq_none, or_assoc]
    rfl
  refine ⟨fun h => exec_of_refuse hn hy ha ?_, fun h => ?_⟩
  · simp only [State.taken, State.takeSetLine, hbad.2 h, if_true]
    rfl
  · let settings : Fin 16 → Line → Line := fun l x =>
      if set.getLsbD l then x.configure (Setting.read (keep.getLsbD 0) (driveOfByte rest))
        (Setting.read (keep.getLsbD 1) (driveOfByte fault)) (Setting.read (keep.getLsbD 2) (some qlen))
        (Setting.read (keep.getLsbD 3) (some (access.setWidth 4))) else x
    have htaken : s.taken p (.setLine set keep rest fault qlen access) =
        s.conclude p .setLine false (s.mapLines settings) fun _ => { status := .ok } := by
      simp only [State.taken, State.takeSetLine, mt hbad.1 h]
      rfl
    have hyield : YieldLaw (s.mapLines settings) := State.yieldLaw_configureLines (fun m x => by
      unfold settings
      split
      · exact x.bound_free_configure _ _ _ _
      · exact ⟨rfl, rfl⟩) hy
    have hreads := (onlyTable_mapLines s settings).exec_of_conclude hn htaken
    rw [State.settle_of_yieldLaw _ hyield] at hreads
    obtain ⟨t, hexec, ⟨hslots, hqueue, hlines⟩, haside, hsteady, hanswered⟩ := hreads
    refine ⟨t, hexec, fun m => ⟨fun hm => ?_, fun hm => ?_⟩, hslots, hqueue, haside, hsteady, hanswered⟩
    · rw [hlines, State.line_mapLines]
      exact if_neg (by rw [hm]; exact Bool.false_ne_true)
    · have hdrive : ∀ b : Byte, ∀ k, ¬(k = false ∧ 2 < b.toNat) → k = false → driveOfByte b = some (code b) :=
        fun b k hk hkept => driveOfByte_of_le (Nat.le_of_not_lt fun hlt => hk ⟨hkept, hlt⟩)
      obtain ⟨-, hrest, hfault⟩ : ¬set = 0 ∧ ¬(keep.getLsbD 0 = false ∧ 2 < rest.toNat)
          ∧ ¬(keep.getLsbD 1 = false ∧ 2 < fault.toNat) := by
        simpa only [bad, not_or] using h
      intro x rest' fault'
      rw [hlines, State.line_mapLines]
      refine (if_pos hm).trans ?_
      rw [Line.configure_eq, Setting.over_read_eq (hdrive rest _ hrest), Setting.over_read_eq (hdrive fault _ hfault),
        Setting.over_read_eq (fun _ => rfl), Setting.over_read_eq (fun _ => rfl)]
      rfl

/-- Settles O45: a SET_PORT leaves the board and the yields, so that the event is the settings and the warnings. -/
theorem setPortAppliesSettings : Obligations.SetPortAppliesSettings := by
  intro s p port keep quota ceiling margin window hn hy ha bad
  let quota' := Setting.read (keep.getLsbD 0) (upTo Config.maxQuota quota.toNat)
  let ceiling' := Setting.read (keep.getLsbD 1) (ceilingOfByte ceiling)
  let margin' := Setting.read (keep.getLsbD 2) (marginOf margin)
  let window' := Setting.read (keep.getLsbD 3) (marginOf window)
  have hbad : (quota'.bad || ceiling'.bad || margin'.bad || window'.bad) = true ↔
      (keep.getLsbD 0 = false ∧ 16 < quota.toNat) ∨ (keep.getLsbD 1 = false ∧ 3 < ceiling.toNat)
        ∨ (keep.getLsbD 2 = false ∧ 4095 < margin.toNat) ∨ (keep.getLsbD 3 = false ∧ 4095 < window.toNat) := by
    simp only [Bool.or_eq_true, quota', ceiling', margin', window', Setting.bad_read, upTo_eq_none,
      ceilingOfByte_eq_none, marginOf_eq_none, or_assoc]
    rfl
  refine ⟨fun h => exec_of_refuse hn hy ha ?_, fun q hq h => ?_⟩
  · change s.takeSetPort p port keep quota ceiling margin window = _
    cases hport : portOfByte port with
    | none =>
      simp only [State.takeSetPort, hport]
      rfl
    | some q =>
      have hrange := hbad.2 (h.resolve_left fun hp => by rw [portOfByte_eq_none.2 hp] at hport; cases hport)
      simp only [State.takeSetPort, hport]
      exact if_pos hrange
  · have hport : portOfByte port = some q := by rw [hq, portOfByte_portByte]
    have hgood : (quota'.bad || ceiling'.bad || margin'.bad || window'.bad) = false := by
      rw [Bool.eq_false_iff, Ne, hbad]
      exact fun hr => h (.inr hr)
    obtain ⟨-, hquota, hceiling, hmargin, hwindow⟩ : ¬3 < port.toNat ∧ ¬(keep.getLsbD 0 = false ∧ 16 < quota.toNat)
        ∧ ¬(keep.getLsbD 1 = false ∧ 3 < ceiling.toNat) ∧ ¬(keep.getLsbD 2 = false ∧ 4095 < margin.toNat)
        ∧ ¬(keep.getLsbD 3 = false ∧ 4095 < window.toNat) := by
      simpa only [bad, not_or] using h
    have hlow : quotaTooLow quota' (s.slotUse q) = true ↔ keep.getLsbD 0 = false ∧ quota.toNat < s.slotUse q :=
      quotaTooLow_iff fun hk => Nat.le_of_not_lt fun hlt => hquota ⟨hk, hlt⟩
    refine ⟨fun hl => exec_of_refuse hn hy ha ?_, fun hl => ?_⟩
    · change s.takeSetPort p port keep quota ceiling margin window = _
      simp only [State.takeSetPort, hport]
      exact (if_neg (by rw [hgood]; exact Bool.false_ne_true)).trans (if_pos (hlow.2 hl))
    · let v := s.updPort q (PortState.configure quota' ceiling' margin' window')
      have htaken : s.taken p (.setPort port keep quota ceiling margin window) =
          s.conclude p .setPort false (v.warnOnMargin q margin') fun _ => { status := .ok } := by
        change s.takeSetPort p port keep quota ceiling margin window = _
        simp only [State.takeSetPort, hport]
        exact (if_neg (by rw [hgood]; exact Bool.false_ne_true)).trans (if_neg (mt hlow.1 hl))
      have hreads := exec_of_conclude hn htaken
      have hyield : YieldLaw v := State.yieldLaw_updPort q (PortState.configure quota' ceiling' margin' window') hy
      rw [State.settle_of_yieldLaw _ (State.yieldLaw_warnOnMargin (s := v) q margin' hyield)] at hreads
      obtain ⟨t, hexec, ⟨hslots, hqueue, hlines⟩, haside, hsteady, hpointer, hanswer, hothers⟩ := hreads
      have hports : ∀ x, (v.warnOnMargin q margin').port x =
          if x = q then (s.port x).configure quota' ceiling' margin' window' else s.port x := fun x => by
        rw [State.port_warnOnMargin]
        exact State.port_updPort s q _ x
      have hvport : (v.port q).margin = if keep.getLsbD 2 then (s.port q).margin else margin := by
        rw [show v.port q = _ from State.port_updPort s q _ q, if_pos rfl,
          PortState.configure_of_inRange hquota hceiling hmargin hwindow]
      have hslot : ∀ i, t.slot i = { s.slot i with
          lease := (s.leaseAt i).map fun l =>
            if (keep.getLsbD 2 = false ∧ (marginOf margin).isSome = true) ∧ l.holder = q ∧ v.warningCondition l = true
            then l.warn else l } := fun i => (hslots i).trans (v.slot_warnOnMargin q _ _ i)
      intro marginNow
      refine ⟨t, hexec, ?_, fun x hx => ?_, fun i => ⟨fun hnone => ?_, fun l hlease => ?_⟩,
        fun m => (hlines m).trans (State.line_warnOnMargin _ _ _ m),
        hqueue.trans (sameBoard_warnOnMargin v q margin').queue,
        aside_trans (onlyTable_warnOnMargin v q margin').aside haside, hpointer, hanswer, fun x hx => ?_⟩
      · have hq := hsteady q
        rwa [hports, if_pos rfl, PortState.configure_of_inRange hquota hceiling hmargin hwindow] at hq
      · have hx' := hsteady x
        rwa [hports, if_neg hx] at hx'
      · rw [hslot, hnone]
        exact Slot.with_lease hnone
      · intro warn
        have hwarn : (keep.getLsbD 2 = false ∧ (marginOf margin).isSome = true) ∧ l.holder = q
            ∧ v.warningCondition l = true ↔ warn := by
          rw [State.warningCondition_iff]
          constructor
          · rintro ⟨⟨hkept, -⟩, hholder, g, hg, hw⟩
            rw [hholder, hvport] at hw
            exact ⟨hkept, hholder, g, hg, hw⟩
          · rintro ⟨hkept, hholder, g, hg, hw⟩
            refine ⟨⟨hkept, ?_⟩, hholder, g, hg, by rwa [hholder, hvport]⟩
            rw [marginOf_of_le (Nat.le_of_not_lt fun hlt => hmargin ⟨hkept, hlt⟩)]
            rfl
        rw [hslot, hlease, Option.map_some]
        refine ⟨fun h => by rw [if_pos (hwarn.2 h)], fun h => ?_⟩
        rw [if_neg (mt hwarn.1 h)]
        exact Slot.with_lease hlease
      · rw [hothers x hx, hports]
        split <;> rfl

end

section
/-! SUPPORT. MASK, SET_HEARTBEAT, and the items of attachment (R113, R140, R167 to R169). -/

namespace Sys2Proof.Machine

variable (s : State)

/-! ## Notice-kind bytes (R158) -/

theorem getLsbD_bitAt {n i : Nat} (hn : n < 8) (hi : i < 8) (b : Bool) :
    (bitAt n b).getLsbD i = (b && decide (i = n)) := by
  cases b
  · simp [bitAt]
  · interval_cases n <;> interval_cases i <;> rfl

/-- R158: a kind byte that names no seventh kind is read back from the kinds that it names. -/
theorem toByte_noticesOfByte {k : Byte} (h6 : k.getLsbD 6 = false) (h7 : k.getLsbD 7 = false) :
    (noticesOfByte k).toByte ||| bitAt 5 (k.getLsbD 5) = k := by
  refine BitVec.eq_of_getLsbD_eq fun i hi => ?_
  simp only [Notices.toByte, noticesOfByte, BitVec.getLsbD_or]
  rw [getLsbD_bitAt (by decide) hi, getLsbD_bitAt (by decide) hi, getLsbD_bitAt (by decide) hi,
    getLsbD_bitAt (by decide) hi, getLsbD_bitAt (by decide) hi, getLsbD_bitAt (by decide) hi]
  interval_cases i <;> simp
  · exact h6
  · exact h7

theorem getLsbD_of_toNat_lt {k : Byte} (h : k.toNat < 64) : k.getLsbD 6 = false ∧ k.getLsbD 7 = false :=
  ⟨Nat.testBit_lt_two_pow (i := 6) h, Nat.testBit_lt_two_pow (i := 7) (h.trans (by decide))⟩

/-- R140: a change to LEVEL ends a running gap. -/
theorem PortState.gap_setMask (kinds : Byte) (m : AttnMode) (x : PortState) :
    (x.setMask kinds m).gap = if m = .level then none else x.gap := by
  cases m <;> rfl

theorem AttnMode.toByte_of_le {b : Byte} (h : b.toNat ≤ 1) :
    AttnMode.toByte (if b = 0 then .level else .gap) = b := by
  have hb : b = 0 ∨ b = 1 := by
    obtain h | h : b.toNat = 0 ∨ b.toNat = 1 := by omega
    · exact .inl (eq_of_toNat h)
    · exact .inr (eq_of_toNat h)
  obtain rfl | rfl := hb <;> rfl

/-! ## Events that leave ATTN_x as it is (R141) -/

/-- R141: an event that posted nothing, and leaves ATTN_x as the law gives it, needs no attention. -/
theorem State.attend_of_unposted {s t : State} (hposted : ∀ q, s.freshlyPosted t q = false) (ht : AttentionLaw t) :
    s.attend none t = t := by
  refine State.ext_of_reads (s := t) (t := s.attend none t) (t.slot_attend s none) (t.line_attend s none) (fun q => ?_)
    (t.input_attend s none) rfl rfl rfl rfl rfl rfl
  rw [State.port_attend_of_unposted (hposted q), ← ht q]

theorem Slot.flagsFor_of_not_heldBy {x : Slot} {q : Port} (h : x.heldBy q = false) : x.flagsFor q = {} := by
  unfold Slot.flagsFor
  split
  · rename_i l hl
    rw [if_neg]
    intro hq
    rw [Slot.heldBy, hl] at h
    simp [hq] at h
  · rfl

/-- R171: nothing is pending for a detached port. -/
theorem State.unmaskedPending_of_detached {s : State} {q : Port} (hd : DetachedLaw s) (h : s.attached q = false) :
    s.unmaskedPending q = false := by
  obtain ⟨huse, -, hclock, -, -⟩ := hd q h
  have hheld : ∀ i, (s.slot i).heldBy q = false := fun i => by
    rw [State.slotUse, List.countP_eq_zero] at huse
    exact Bool.eq_false_iff.2 (huse i (mem_allSlots i))
  have hnone : ∀ m : Notices, (Notices.minus {} m).any = false := fun m => rfl
  rw [State.unmaskedPending, hclock]
  simp [Slot.flagsFor_of_not_heldBy (hheld _), hnone]

theorem State.attnLevel_of_port {s t : State} {q : Port} (hslot : ∀ i, t.slot i = s.slot i)
    (hport : t.port q = s.port q) (hreset : t.inReset = s.inReset) : t.attnLevel q = s.attnLevel q :=
  State.attnLevel_congr hslot (State.attached_congr hreset (congrArg _ hport) (congrArg _ hport)) (congrArg _ hport)
    (congrArg _ hport) (congrArg _ hport) (congrArg _ hport) (by rw [hport])

/-- R167 to R169: a change of the attachment of a port that was not attached, and is not detached by it, posts nothing
and leaves every ATTN_x. -/
theorem State.attend_attachItem {s : State} {q : Port} {f : PortState → PortState}
    (hf : ∀ x, (f x).clockFlag = x.clockFlag ∧ (f x).maskClock = x.maskClock ∧ (f x).mask = x.mask
      ∧ (f x).mode = x.mode ∧ (f x).gap = x.gap ∧ (f x).attn = x.attn)
    (ha : AttentionLaw s) (hd : DetachedLaw s) (h : s.attached q = false) :
    s.attend none (s.updPort q f) = s.updPort q f := by
  obtain ⟨hclock, hmaskClock, hmask, hmode, hgap, hattn⟩ := hf (s.port q)
  have hport : ∀ r, r ≠ q → (s.updPort q f).port r = s.port r := fun r hr => by
    rw [State.port_updPort, if_neg hr]
  have hself : (s.updPort q f).port q = f (s.port q) := by rw [State.port_updPort, if_pos rfl]
  refine State.attend_of_unposted (fun r => State.freshlyPosted_of_flags (fun _ => rfl) ?_) fun r => ?_
  · by_cases hr : r = q
    · rw [hr, hself, hclock]
      exact id
    · rw [hport r hr]
      exact id
  · by_cases hr : r = q
    · have hpending : (s.updPort q f).unmaskedPending q = s.unmaskedPending q := by
        simp only [State.unmaskedPending, hself, hclock, hmaskClock, hmask, State.slot_updPort]
      rw [hr, hself, hattn, ha q, State.attnLevel, State.attnLevel, hpending,
        State.unmaskedPending_of_detached hd h]
      simp
    · rw [hport r hr, ha r]
      exact (State.attnLevel_of_port (s := s) (t := s.updPort q f) (fun _ => rfl) (hport r hr) rfl).symm

theorem State.changeAttach_of_detached {q : Port} {f : PortState → PortState} (h : s.attached q = false) :
    s.changeAttach q f = (s.updPort q f, false) := by
  rw [State.changeAttach, h]
  rfl

theorem State.updPort_of_fixed {q : Port} {f : PortState → PortState} (h : f (s.port q) = s.port q) :
    s.updPort q f = s := by
  refine State.ext_of_reads (s := s) (t := s.updPort q f) (fun _ => rfl) (fun _ => rfl) (fun r => ?_) (fun _ => rfl)
    rfl rfl rfl rfl rfl rfl
  rw [State.port_updPort]
  split
  · rename_i hr
    rw [hr, h]
  · rfl

/-! ## SET_HEARTBEAT (R113) -/

theorem State.yieldLaw_mapInputs {s : State} (f : Fin 4 → HbInput → HbInput) (hy : YieldLaw s) :
    YieldLaw (s.mapInputs f) := (sameBoard_of_stands (tableStands_mapInputs s f)).yieldLaw (fun _ => rfl) hy

/-- R114: the settings of an input, with their effect on its counts. -/
theorem HbInput.configure_eq (enable : Setting Bool) (edge : Setting EdgeSel) (debounce : Setting Nat) (x : HbInput) :
    x.configure enable edge debounce =
      { x with
        enabled := enable.over x.enabled
        edge := edge.over x.edge
        debounce := debounce.over x.debounce
        stable := if enable.over x.enabled = x.enabled ∧ debounce.over x.debounce = x.debounce then x.stable else 0
        seeding := if enable.over x.enabled = true ∧ x.enabled = false then true else x.seeding } := by
  have hstable : (enable.over x.enabled ≠ x.enabled ∨ debounce.over x.debounce ≠ x.debounce) ↔
      ¬(enable.over x.enabled = x.enabled ∧ debounce.over x.debounce = x.debounce) := by
    rw [not_and_or]
  rw [HbInput.configure]
  simp only [hstable, ite_not, Bool.and_eq_true, Bool.not_eq_true']

end Sys2Proof.Machine

open Sys2Proof Sys2Proof.Machine

/-- Settles O46: a MASK posts nothing and leaves the yields, so that the event is the mask, the mode and ATTN. -/
theorem maskReplacesMaskAndMode : Obligations.MaskReplacesMaskAndMode := by
  intro s p kinds mode hn hy ha
  refine ⟨fun hbad => exec_of_refuse hn hy ha ?_, fun hkinds hmode => ?_⟩
  · change s.takeMask p kinds mode = _
    cases hm : attnModeOfByte mode with
    | none =>
      simp only [State.takeMask, hm]
      rfl
    | some m =>
      have hle : ¬1 < mode.toNat := fun hlt => by
        rw [attnModeOfByte_eq_none.2 hlt] at hm
        cases hm
      have hbit : (kinds.getLsbD 6 || kinds.getLsbD 7) = true := by
        rw [← Bool.not_eq_false, Bool.or_eq_false_iff]
        rintro ⟨h6, h7⟩
        have := toNat_lt_of_getLsbD h6 h7
        omega
      simp only [State.takeMask, hm]
      exact if_pos hbit
  · obtain ⟨h6, h7⟩ := getLsbD_of_toNat_lt hkinds
    let m : AttnMode := if mode = 0 then .level else .gap
    have htaken : s.taken p (.mask kinds mode) =
        s.conclude p .mask false (s.updPort p (PortState.setMask kinds m)) fun t =>
          { status := .ok, data := [(t.port p).maskByte, (t.port p).mode.toByte] } := by
      change s.takeMask p kinds mode = _
      simp only [State.takeMask, attnModeOfByte_of_le hmode]
      exact if_neg (by rw [h6, h7]; exact Bool.false_ne_true)
    obtain ⟨u, hu⟩ : ∃ u, u = s.updPort p (PortState.setMask kinds m) := ⟨_, rfl⟩
    have hself : u.port p = (s.port p).setMask kinds m := by rw [hu, State.port_updPort, if_pos rfl]
    have hothers : ∀ q, q ≠ p → u.port q = s.port q := fun q hq => by rw [hu, State.port_updPort, if_neg hq]
    have hslot : ∀ i, u.slot i = s.slot i := fun i => by rw [hu, State.slot_updPort]
    have hyield : YieldLaw u := hu ▸ State.yieldLaw_updPort p (PortState.setMask kinds m) hy
    have hposted : s.freshlyPosted u p = false :=
      State.freshlyPosted_of_flags (fun i => by rw [hslot]) (by rw [hself]; exact id)
    have hattend := State.port_attend_of_unposted hposted
    rw [← hu, State.conclude_settled hyield] at htaken
    have hdata : [(u.port p).maskByte, (u.port p).mode.toByte] = [kinds, mode] := by
      have hmask : (u.port p).maskByte = kinds := by
        rw [hself]
        exact toByte_noticesOfByte h6 h7
      have hmodeByte : (u.port p).mode.toByte = mode := by
        rw [hself]
        exact AttnMode.toByte_of_le hmode
      rw [hmask, hmodeByte]
    rw [hdata] at htaken
    have hport : ∀ q, q ≠ p → (s.attend none u).port q = s.port q := fun q hq =>
      State.port_attend_of_stands ha (fun i => by rw [hslot]) (hothers q hq) (by rw [hu, State.inReset_updPort])
    obtain ⟨⟨-, hqueue, -⟩, haside, -, hpointer, hanswer, -⟩ :=
      s.reads_closed u none p .mask { status := .ok, data := [kinds, mode] }
    refine ⟨_, (exec_instr_of_nextRequest hn).trans (congrArg _ htaken), ⟨hslot, hqueue.trans (by rw [hu]; rfl),
      fun m => by rw [State.line_respond, State.line_attend, hu, State.line_updPort]⟩,
      aside_trans (hu ▸ State.aside_updPort s p _) haside, fun q hq => ?_, ?_, ?_, ?_, hpointer, hanswer,
      fun q hq => ?_⟩
    · rw [State.port_respond, if_neg hq, hport q hq]
    · rw [State.port_respond, if_pos rfl, hattend, hself]
      simp [PortState.steady, PortState.setMask, noticesOfByte, m]
    · rw [State.port_respond, if_pos rfl, hattend, hself]
      change (PortState.setMask kinds m (s.port p)).gap = _
      rw [PortState.gap_setMask]
      by_cases hzero : mode = 0 <;> simp only [m, hzero] <;> rfl
    · exact attentionLaw_respond (attentionLaw_attend s u none) p _ _ p
    · rw [State.port_respond, if_neg hq, hport q hq]

/-- Settles O53: a SET_HEARTBEAT leaves the table and the ports, so that the event is the settings alone. -/
theorem setHeartbeatAppliesSettings : Obligations.SetHeartbeatAppliesSettings := by
  intro s p inputs keep enable edge debounce hn hy ha bad
  let enable' := Setting.read (keep.getLsbD 0) (some (enable.getLsbD 0))
  let edge' := Setting.read (keep.getLsbD 1) (edgeOfByte edge)
  let debounce' := Setting.read (keep.getLsbD 2) (debounceOfByte debounce)
  have hbad : (inputs == 0 || decide (16 ≤ inputs.toNat) || edge'.bad || debounce'.bad) = true ↔ bad := by
    simp only [Bool.or_eq_true, beq_iff_eq, decide_eq_true_eq, edge', debounce', Setting.bad_read, edgeOfByte_eq_none,
      debounceOfByte_eq_none, or_assoc]
    rfl
  refine ⟨fun h => exec_of_refuse hn hy ha ?_, fun h => ?_⟩
  · change s.takeSetHeartbeat p inputs keep enable edge debounce = _
    exact if_pos (hbad.2 h)
  · let f : Fin 4 → HbInput → HbInput := fun n x => if inputs.getLsbD n.val then x.configure enable' edge' debounce' else x
    have htaken : s.taken p (.setHeartbeat inputs keep enable edge debounce) =
        s.conclude p .setHeartbeat false (s.mapInputs f) fun _ => { status := .ok } := by
      change s.takeSetHeartbeat p inputs keep enable edge debounce = _
      exact if_neg (mt hbad.1 h)
    obtain ⟨-, -, hedge, hdebounce⟩ : ¬inputs = 0 ∧ ¬15 < inputs.toNat ∧ ¬(keep.getLsbD 1 = false ∧ 2 < edge.toNat)
        ∧ ¬(keep.getLsbD 2 = false ∧ (debounce = 0 ∨ 15 < debounce.toNat)) := by
      simpa only [bad, not_or] using h
    have hattend : s.attend none (s.mapInputs f) = s.mapInputs f :=
      State.attend_self (s.mapInputs f) fun q => ha q
    rw [State.conclude_settled (State.yieldLaw_mapInputs f hy), hattend] at htaken
    have hport : ∀ q, (s.mapInputs f).port q = s.port q := fun q => rfl
    refine ⟨_, (exec_instr_of_nextRequest hn).trans (congrArg _ htaken), ⟨fun _ => rfl, rfl, fun _ => rfl⟩, rfl, rfl,
      rfl, rfl, fun q hq => ?_, State.portsSteady_respond hport _ _ _, State.answered_respond hport _ _ _,
      fun n => ⟨fun hout => ?_, fun hin => ?_⟩⟩
    · rw [State.port_respond, if_neg hq, hport]
    · rw [State.input_respond, State.input_mapInputs]
      exact if_neg (by rw [hout]; exact Bool.false_ne_true)
    · intro x on length
      rw [State.input_respond, State.input_mapInputs]
      refine (if_pos hin).trans ?_
      rw [HbInput.configure_eq, Setting.over_read_eq (fun _ => rfl),
        Setting.over_read_eq fun hk => edgeOfByte_of_le (Nat.le_of_not_lt fun hlt => hedge ⟨hk, hlt⟩),
        Setting.over_read_eq fun hk => debounceOfByte_of_some fun hr => hdebounce ⟨hk, hr⟩]

/-- Settles O48: each item leaves the yields and every ATTN_x. -/
theorem attachmentItemsChangeAlone : Obligations.AttachmentItemsChangeAlone := by
  intro s hy ha hd
  refine ⟨fun p q hn => ?attach, fun p q hq hdetached hn => ?detach, fun p hn => ?portA, fun p b hb => ⟨fun hn => ?_,
    fun hn => ?_⟩, fun x high hreset hpen hdetached => ?pen⟩
  case attach =>
    have htaken : s.taken p (.attach (portByte q)) =
        s.conclude p .attach false (s.updPort q fun x => { x with cmdDetach := false }) fun _ => { status := .ok } := by
      change s.takeAttach p (portByte q) = _
      simp only [State.takeAttach, portOfByte_portByte]
    rw [State.conclude_settled (State.yieldLaw_updPort q _ hy)] at htaken
    have hattend : s.attend none (s.updPort q fun x => { x with cmdDetach := false }) =
        s.updPort q fun x => { x with cmdDetach := false } := by
      cases hattached : s.attached q with
      | false => exact State.attend_attachItem (fun _ => ⟨rfl, rfl, rfl, rfl, rfl, rfl⟩) ha hd hattached
      | true =>
        rw [State.updPort_of_fixed, s.attend_self ha]
        rw [State.attached, Bool.and_eq_true, Bool.not_eq_true'] at hattached
        obtain ⟨-, hcmd⟩ := hattached
        rw [← hcmd]
    rw [hattend] at htaken
    exact (exec_instr_of_nextRequest hn).trans (congrArg _ htaken)
  case detach =>
    have htaken : s.taken p (.detach (portByte q)) =
        s.conclude p .detach false (s.updPort q fun x => { x with cmdDetach := true }) fun _ => { status := .ok } := by
      change s.takeDetach p (portByte q) = _
      cases q with
      | A => exact absurd rfl hq
      | B | C | D =>
        simp only [State.takeDetach, portOfByte_portByte, State.changeAttach_of_detached s hdetached]
    rw [State.conclude_settled (State.yieldLaw_updPort q _ hy),
      State.attend_attachItem (by exact fun _ => ⟨rfl, rfl, rfl, rfl, rfl, rfl⟩) ha hd hdetached] at htaken
    exact (exec_instr_of_nextRequest hn).trans (congrArg _ htaken)
  case portA =>
    exact exec_of_refuse hn hy ha rfl
  case pen =>
    change execPenChange x high s = _
    rw [execPenChange, hreset, if_neg (by simpa using hpen)]
    simp only [State.changeAttach_of_detached s hdetached]
    rw [State.engineEvent_settled (State.yieldLaw_updPort x _ hy),
      State.attend_attachItem (by exact fun _ => ⟨rfl, rfl, rfl, rfl, rfl, rfl⟩) ha hd hdetached]
  · refine exec_of_refuse hn hy ha ?_
    change s.takeDetach p b = _
    simp only [State.takeDetach, portOfByte_eq_none.2 hb]
    rfl
  · refine exec_of_refuse hn hy ha ?_
    change s.takeAttach p b = _
    simp only [State.takeAttach, portOfByte_eq_none.2 hb]
    rfl

end

section
/-! SUPPORT. QUERY and PEEK (R19 to R21, R158). -/

namespace Sys2Proof.Machine

variable (s : State)

/-- R156: the position of a waiter, counted from 1 at the head. -/
theorem length_takeWhile_ne (i : Fin 16) (q : List (Fin 16)) :
    (q.takeWhile fun j => j ≠ i).length = q.idxOf i := by
  induction q with
  | nil => rfl
  | cons j q ih =>
    by_cases hj : j = i
    · simp [hj]
    · rw [List.takeWhile_cons_of_pos (by simpa using hj), List.length_cons, ih, List.idxOf_cons_ne _ hj]

theorem State.position_eq (i : Fin 16) : s.position i = if i ∈ s.queue then s.queue.idxOf i + 1 else 0 := by
  rw [State.position, length_takeWhile_ne]

theorem State.positionByte_eq (i : Fin 16) (l : Lease) :
    BitVec.ofNat 8 (if l.isWaiting then s.position i else 0) =
      if l.isWaiting ∧ i ∈ s.queue then BitVec.ofNat 8 (s.queue.idxOf i + 1) else 0 := by
  rw [State.position_eq]
  by_cases hw : l.isWaiting = true <;> by_cases hi : i ∈ s.queue <;> simp [hw, hi]

theorem Lease.attributes_eq (l : Lease) :
    l.attributes = (if l.yieldable then 0x01 else 0x00)
      ||| (if (∃ g ∈ l.holding, g.warned = true) then 0x02 else 0x00) := by
  rw [Lease.attributes]
  cases l.yieldable <;> cases l.holding with
  | none => simp [bitAt]
  | some g => cases hw : g.warned <;> simp [bitAt, hw]

end Sys2Proof.Machine

open Sys2Proof Sys2Proof.Machine

/-- Settles O51: each is answered from the state as it stood, so that its data are compared item by item. -/
theorem queryAndPeekReportRecord : Obligations.QueryAndPeekReportRecord := by
  intro s hy ha record left expiry
  have hrecord : ∀ i l, s.recordBytes i l = record i l := fun i l => by
    rw [State.recordBytes, Lease.attributes_eq, State.positionByte_eq]
    cases hs : l.source <;> simp only [record, hs, sourceByte] <;> rfl
  have hleft : ∀ d, s.leftBytes d = left d := fun d => by cases d <;> rfl
  refine ⟨fun p h i l hn hc hp => ?query, fun p b hn hb => ?range, fun p b i hn hb => ⟨fun hnone => ?free,
    fun l hl => ?peek⟩⟩
  case query =>
    obtain ⟨-, hcheck⟩ := s.checkHandle_of_current hc
    rw [hp] at hcheck
    refine exec_report hy ha hn (f := fun t => t.queryData i) ?_ ?_
    · change s.takeQuery p h = _
      simp only [State.takeQuery, hcheck]
    · simp only [State.queryData, hc.2.1, State.handleBytes_of_current s hc, hrecord, hleft]
      simp only [List.cons_append, List.nil_append, List.append_assoc]
      rfl
  case range =>
    refine exec_of_refuse hn hy ha ?_
    change s.takePeek p b = _
    simp only [State.takePeek, slotOfByte_eq_none hb]
    rfl
  case free =>
    refine exec_report hy ha hn (f := fun t => t.peekData i) ?_ ?_
    · change s.takePeek p b = _
      simp only [State.takePeek, slotOfByte_of_toNat hb]
    · simp only [State.peekData, hnone, State.handleBytes, slotByte_eq_of_toNat hb]
      rfl
  case peek =>
    refine exec_report hy ha hn (f := fun t => t.peekData i) ?_ ?_
    · change s.takePeek p b = _
      simp only [State.takePeek, slotOfByte_of_toNat hb]
    · simp only [State.peekData, hl, State.handleBytes, slotByte_eq_of_toNat hb, hrecord]
      simp only [List.cons_append, List.nil_append, List.append_assoc]
      rfl

end

section
/-! SUPPORT. The gaps of ATTN_x under every command (R142, R143). -/

namespace Sys2Proof.Machine

variable (s : State)

/-- Slots and ports of `t` are as `u` has them, but for the buffers, the gaps and ATTN_x. -/
structure NoticesAlike (u t : State) (q : Port) : Prop where
  slot : ∀ i, t.slot i = u.slot i
  attached : t.attached q = u.attached q
  clockFlag : (t.port q).clockFlag = (u.port q).clockFlag
  maskClock : (t.port q).maskClock = (u.port q).maskClock
  mask : (t.port q).mask = (u.port q).mask
  mode : (t.port q).mode = (u.port q).mode

namespace NoticesAlike

variable {s u t : State} {q : Port} (h : NoticesAlike u t q)

include h

theorem unmaskedPending : t.unmaskedPending q = u.unmaskedPending q := by
  simp only [State.unmaskedPending, h.slot, h.clockFlag, h.maskClock, h.mask]

theorem freshlyPosted : s.freshlyPosted t q = s.freshlyPosted u q := by
  simp only [State.freshlyPosted, h.slot, h.clockFlag, h.maskClock, h.mask]

/-- An event that leaves all this posted nothing. -/
theorem unposted : u.freshlyPosted t q = false :=
  State.freshlyPosted_of_flags (fun i => by rw [h.slot]) (by rw [h.clockFlag]; exact id)

end NoticesAlike

theorem noticesAlike_attend (t : State) (acked : Option Port) (q : Port) : NoticesAlike t (s.attend acked t) q where
  slot := t.slot_attend s acked
  attached := s.attached_attend t acked q
  clockFlag := s.port_attend_keeps PortState.clockFlag (fun _ _ _ => rfl) t acked q
  maskClock := s.port_attend_keeps PortState.maskClock (fun _ _ _ => rfl) t acked q
  mask := s.port_attend_keeps PortState.mask (fun _ _ _ => rfl) t acked q
  mode := s.port_attend_keeps PortState.mode (fun _ _ _ => rfl) t acked q

theorem noticesAlike_updPort {p q : Port} {f : PortState → PortState}
    (hf : ∀ x, (f x).pen = x.pen ∧ (f x).cmdDetach = x.cmdDetach ∧ (f x).clockFlag = x.clockFlag
      ∧ (f x).maskClock = x.maskClock ∧ (f x).mask = x.mask ∧ (f x).mode = x.mode) :
    NoticesAlike s (s.updPort p f) q := by
  have hport : ((s.updPort p f).port q).pen = (s.port q).pen
      ∧ ((s.updPort p f).port q).cmdDetach = (s.port q).cmdDetach
      ∧ ((s.updPort p f).port q).clockFlag = (s.port q).clockFlag
      ∧ ((s.updPort p f).port q).maskClock = (s.port q).maskClock ∧ ((s.updPort p f).port q).mask = (s.port q).mask
      ∧ ((s.updPort p f).port q).mode = (s.port q).mode := by
    rw [State.port_updPort]
    split
    · exact hf _
    · exact ⟨rfl, rfl, rfl, rfl, rfl, rfl⟩
  obtain ⟨hpen, hcmd, hclock, hmaskClock, hmask, hmode⟩ := hport
  exact ⟨s.slot_updPort p f, State.attached_congr rfl hpen hcmd, hclock, hmaskClock, hmask, hmode⟩

/-- A change of the clock block, the lines and the inputs alone. -/
theorem noticesAlike_of_ports {u t : State} {q : Port} (hslot : ∀ i, t.slot i = u.slot i)
    (hport : t.port q = u.port q) (hreset : t.inReset = u.inReset) : NoticesAlike u t q where
  slot := hslot
  attached := State.attached_congr hreset (congrArg _ hport) (congrArg _ hport)
  clockFlag := congrArg _ hport
  maskClock := congrArg _ hport
  mask := congrArg _ hport
  mode := congrArg _ hport

/-! ## Where the attention units begin a gap (R142) -/

theorem State.gap_attend (t : State) (acked : Option Port) (q : Port) :
    ((s.attend acked t).port q).gap = if s.startsGap t acked q then some 0 else (t.port q).gap := by
  rw [State.port_attend]

theorem State.startsGap_iff {s t : State} {acked : Option Port} {q : Port} : s.startsGap t acked q = true ↔
    (t.port q).gap = none ∧ t.attached q = true ∧ (t.port q).mode = .gap
      ∧ (acked = some q ∧ t.unmaskedPending q = true
        ∨ s.freshlyPosted t q = true ∧ (s.port q).attn = true) := by
  rw [State.startsGap]
  simp only [Bool.and_eq_true, Bool.or_eq_true, beq_iff_eq, Option.isNone_iff_eq_none]
  tauto

/-- An answer leaves all this too. -/
theorem noticesAlike_respond (p : Port) (c : Command) (a : Answer) (q : Port) :
    NoticesAlike s (s.respond p c a) q :=
  let h := noticesAlike_updPort s (p := p) (q := q)
    (f := fun x => { x with buffer := .ready (Response.make c.code a) }) fun _ => ⟨rfl, rfl, rfl, rfl, rfl, rfl⟩
  ⟨h.slot, h.attached, h.clockFlag, h.maskClock, h.mask, h.mode⟩

theorem NoticesAlike.trans {s t u : State} {q : Port} (h : NoticesAlike s t q) (h' : NoticesAlike t u q) :
    NoticesAlike s u q :=
  ⟨fun i => (h'.slot i).trans (h.slot i), h'.attached.trans h.attached, h'.clockFlag.trans h.clockFlag,
    h'.maskClock.trans h.maskClock, h'.mask.trans h.mask, h'.mode.trans h.mode⟩

theorem State.gap_respond (p q : Port) (c : Command) (a : Answer) :
    ((s.respond p c a).port q).gap = (s.port q).gap := by
  rw [State.port_respond]
  split <;> rfl

/-! ## What the events make of a running gap -/

/-- R140, R171, R173: an event ends a gap only as it takes away what a gap needs. -/
theorem gap_change {u : State} {asker : Option Port} {scan : Bool} (h : Change s asker u scan) (q : Port) :
    (u.port q).gap = (s.port q).gap
      ∨ (u.port q).gap = none ∧ ∀ acked, s.startsGap (u.settle scan).1 acked q = false := by
  have htouch := port_change s h q
  generalize hx : u.port q = x at htouch
  have hsettled : (u.settle scan).1.port q = x := by rw [State.port_settle, hx]
  cases htouch with
  | masked kinds m =>
    cases m with
    | gap => exact .inl rfl
    | level =>
      refine .inr ⟨rfl, fun acked => Bool.eq_false_iff.2 fun hstarts => ?_⟩
      obtain ⟨-, -, hmode, -⟩ := State.startsGap_iff.1 hstarts
      rw [hsettled] at hmode
      cases hmode
  | detached pen cmd hdetached =>
    refine .inr ⟨rfl, fun acked => Bool.eq_false_iff.2 fun hstarts => ?_⟩
    obtain ⟨-, hattached, -⟩ := State.startsGap_iff.1 hstarts
    rw [u.attached_settle scan, hdetached] at hattached
    cases hattached
  | cleared hfree =>
    have hfree' : (u.settle scan).1.TableFree := fun i => free_keptByRounds.settle (hfree i) scan
    have hclock : ((u.settle scan).1.port q).clockFlag = false := by rw [hsettled]
    refine .inr ⟨rfl, fun acked => Bool.eq_false_iff.2 fun hstarts => ?_⟩
    obtain ⟨-, -, -, hpending | hposted⟩ := State.startsGap_iff.1 hstarts
    · rw [State.unmaskedPending_of_tableFree hfree' hclock] at hpending
      cases hpending.2
    · rw [State.freshlyPosted_of_tableFree hfree' hclock] at hposted
      cases hposted.1
  | stands | clockRead | configured | attached | clockPosted => exact .inl rfl

/-- What O20 says of a port whose gap does not run. -/
def GapBegins (s : State) (c : Instr) (t : State) (q : Port) : Prop :=
  ((t.port q).gap = some 0 ↔
      t.attached q = true ∧ (t.port q).mode = .gap
        ∧ ((c = .ack ∧ (∃ r, s.nextRequest = some (q, r))
              ∧ (∃ resp, (t.port q).buffer = .ready resp ∧ resp.status = .ok)
              ∧ t.unmaskedPending q = true)
            ∨ (s.freshlyPosted t q = true ∧ (s.port q).attn = true)))
    ∧ ((t.port q).gap = none ∨ (t.port q).gap = some 0)

section Begins

variable {s t : State} {c : Instr} {q : Port}

/-- No gap begins where the event posted nothing and was no accepted ACK. -/
theorem gapBegins_of_unposted (hgap : (t.port q).gap = none)
    (hnot : t.attached q = true → s.freshlyPosted t q = false
      ∧ (c = .ack → ∀ r resp, s.nextRequest = some (q, r) → (t.port q).buffer ≠ .ready resp)) :
    GapBegins s c t q := by
  refine ⟨⟨fun h => ?_, fun ⟨hattached, _, h⟩ => ?_⟩, .inl hgap⟩
  · rw [hgap] at h
    cases h
  · obtain ⟨hposted, hack⟩ := hnot hattached
    obtain ⟨hc, ⟨r, hr⟩, ⟨resp, hresp, -⟩, -⟩ | ⟨h, -⟩ := h
    · exact absurd hresp (hack hc r resp hr)
    · rw [hposted] at h
      cases h

/-- A gap begins where the attention units begin one. -/
theorem gapBegins_of_attended {u : State} {acked : Option Port} (hgap : (u.port q).gap = none)
    (halike : NoticesAlike u t q)
    (hattend : (t.port q).gap = if s.startsGap u acked q then some 0 else (u.port q).gap)
    (hack : acked = some q ↔
      c = .ack ∧ (∃ r, s.nextRequest = some (q, r)) ∧ ∃ resp, (t.port q).buffer = .ready resp ∧ resp.status = .ok) :
    GapBegins s c t q := by
  have hstarts : (t.port q).gap = some 0 ↔ s.startsGap u acked q = true := by
    rw [hattend, hgap]
    cases s.startsGap u acked q <;> simp
  refine ⟨hstarts.trans (State.startsGap_iff.trans ?_), ?_⟩
  · rw [halike.attached, halike.mode, halike.unmaskedPending, halike.freshlyPosted, hack]
    simp only [hgap, true_and, and_assoc]
  · rw [hattend, hgap]
    cases s.startsGap u acked q <;> simp

end Begins

theorem gap_eq_none_of_change {u : State} {asker : Option Port} {scan : Bool} (h : Change s asker u scan) {q : Port}
    (hgap : (s.port q).gap = none) : ((u.settle scan).1.port q).gap = none := by
  rw [State.port_settle]
  obtain hstands | ⟨hnone, -⟩ := gap_change s h q
  · rw [hstands, hgap]
  · exact hnone

theorem gapBegins_request {t : State} {p q : Port} {r : Request} (hn : s.nextRequest = some (p, r))
    (h : TakenAs s p r t) (hgap : (s.port q).gap = none) : GapBegins s r.instr t q := by
  obtain ⟨u, scan, acked, a, hchange, hacked, rfl⟩ := h
  refine gapBegins_of_attended (u := (u.settle scan).1) (acked := acked) (gap_eq_none_of_change s hchange hgap)
    ((noticesAlike_attend s _ _ _).trans (noticesAlike_respond _ _ _ _ _)) ?_ ?_
  · rw [State.gap_respond, State.gap_attend]
  · constructor
    · rintro rfl
      obtain ⟨hp, hr, hok⟩ | ⟨hnone, -⟩ := hacked
      · cases hp
        exact ⟨hr, ⟨r, hn⟩, _, by rw [State.port_respond, if_pos rfl], hok⟩
      · cases hnone
    · rintro ⟨hr, ⟨r', hr'⟩, resp, hbuffer, hok⟩
      cases hn.symm.trans hr'
      rw [State.port_respond, if_pos rfl] at hbuffer
      cases hbuffer
      obtain ⟨hp, -, -⟩ | ⟨-, hnot⟩ := hacked
      · exact hp
      · exact absurd hok (hnot hr)

theorem ne_ack_of_takesRequest {c : Instr} (h : c.takesRequest = false) : c ≠ .ack := by
  rintro rfl
  cases h

theorem gapBegins_attend {u : State} {c : Instr} {q : Port} (hc : c.takesRequest = false)
    (hgap : (u.port q).gap = none) : GapBegins s c (s.attend none u) q :=
  gapBegins_of_attended (acked := none) hgap (noticesAlike_attend s u none q) (s.gap_attend u none q)
    ⟨nofun, fun h => absurd h.1 (ne_ack_of_takesRequest hc)⟩

theorem gapBegins_alike {t : State} {c : Instr} {q : Port} (hc : c.takesRequest = false)
    (halike : NoticesAlike s t q) (hgap : (t.port q).gap = none) : GapBegins s c t q :=
  gapBegins_of_unposted hgap fun _ => ⟨halike.unposted, fun h => absurd h (ne_ack_of_takesRequest hc)⟩

theorem gapBegins_quiet {t : State} {c : Instr} {q : Port} (hc : c.takesRequest = false) (h : Quiet s t)
    (hgap : (s.port q).gap = none) : GapBegins s c t q := by
  have updated : ∀ {p : Port} {f : PortState → PortState}, (∀ x, (f x).gap = x.gap) →
      ((s.updPort p f).port q).gap = none := fun hf => by
    rw [State.port_updPort]
    split
    · rw [hf, hgap]
    · exact hgap
  cases h with
  | selnFall | ignoredRelease | release =>
    exact gapBegins_alike s hc (noticesAlike_updPort s (by exact fun _ => ⟨rfl, rfl, rfl, rfl, rfl, rfl⟩))
      (updated (by exact fun _ => rfl))
  | tick hb =>
    exact gapBegins_alike s hc (noticesAlike_of_ports (s.slot_tickTaken hb) (s.port_tickTaken hb q) (s.inReset_tickTaken hb))
      (by rw [State.port_tickTaken, hgap])
  | @edgeTick d hb =>
    exact gapBegins_alike s hc
      (noticesAlike_of_ports (u := s) ((s.setClockBlock d).slot_tickTaken hb) ((s.setClockBlock d).port_tickTaken hb q)
        ((s.setClockBlock d).inReset_tickTaken hb))
      (by rw [State.port_tickTaken]; exact hgap)
  | clock => exact gapBegins_alike s hc (noticesAlike_of_ports (fun _ => rfl) rfl rfl) hgap
  | @clockPosted d =>
    refine gapBegins_attend s hc ?_
    rw [State.port_postClock]
    split <;> exact hgap
  | gapEnd x =>
    refine gapBegins_attend s hc ?_
    rw [State.port_updPort]
    split
    · rfl
    · exact hgap

/-- R142, R143: a gap that does not run begins at 0 or not at all. -/
theorem gapBegins_effect {t : State} {c : Instr} {q : Port} (h : Effect s c t) (hgap : (s.port q).gap = none) :
    GapBegins s c t q := by
  cases h with
  | stands =>
    refine gapBegins_of_unposted hgap fun _ => ⟨s.freshlyPosted_self q, fun _ r resp hr hbuffer => ?_⟩
    cases (State.nextRequest_pending s hr).2.symm.trans hbuffer
  | request hn hc ht => exact hc ▸ gapBegins_request s hn ht hgap
  | event hc _ hchange => exact gapBegins_attend s hc (gap_eq_none_of_change s hchange hgap)
  | quiet hc hq => exact gapBegins_quiet s hc hq hgap
  | reset =>
    refine gapBegins_of_unposted (by rw [State.port_deviceReset]; rfl) fun hattached => ?_
    cases hattached.symm.trans (State.attached_of_inReset rfl q)
  | release hb pen hc =>
    have hport := State.port_resetReleased s hb pen q
    refine gapBegins_of_unposted (by rw [hport]; exact hgap) fun _ => ⟨?_, fun h => ?_⟩
    · exact State.freshlyPosted_of_flags (fun _ => rfl) (by rw [hport]; exact id)
    · cases hc.symm.trans h

/-! ## A running gap (R142, R143) -/

section Runs

variable {s : State} {q : Port} {n : Nat}

/-- The attention units start no gap again. -/
theorem State.gap_attend_of_runs {u : State} (before : State) (acked : Option Port) (h : (u.port q).gap = some n) :
    ((before.attend acked u).port q).gap = some n := by
  have hstarts : before.startsGap u acked q = false :=
    Bool.eq_false_iff.2 fun hstarts => by cases h.symm.trans (State.startsGap_iff.1 hstarts).1
  rw [State.gap_attend, hstarts]
  exact h

/-- A gap that runs goes on, or ends. -/
def GapGoesOn (t : State) (q : Port) (n : Nat) : Prop := (t.port q).gap = some n ∨ (t.port q).gap = none

theorem gapGoesOn_change {u : State} {asker : Option Port} {scan : Bool} (h : Change s asker u scan)
    (hgap : (s.port q).gap = some n) (acked : Option Port) :
    GapGoesOn (s.attend acked (u.settle scan).1) q n := by
  have hsettled : ((u.settle scan).1.port q).gap = (u.port q).gap := by rw [State.port_settle]
  obtain hstands | ⟨hnone, hstarts⟩ := gap_change s h q
  · exact .inl (State.gap_attend_of_runs s acked (hsettled.trans (hstands.trans hgap)))
  · refine .inr ?_
    rw [State.gap_attend, hstarts acked]
    exact hsettled.trans hnone

theorem gapGoesOn_updPort {p : Port} {f : PortState → PortState} (hgap : (s.port q).gap = some n)
    (hf : ∀ x, (f x).gap = x.gap) : GapGoesOn (s.updPort p f) q n := by
  refine .inl ?_
  rw [State.port_updPort]
  split
  · rw [hf, hgap]
  · exact hgap

theorem gapGoesOn_gapEnd (x : Port) (hgap : (s.port q).gap = some n) :
    GapGoesOn (s.attend none (s.updPort x fun y => { y with gap := none })) q n := by
  by_cases hq : q = x
  · have hposted : s.freshlyPosted (s.updPort x fun y => { y with gap := none }) q = false :=
      (noticesAlike_updPort s (by exact fun _ => ⟨rfl, rfl, rfl, rfl, rfl, rfl⟩)).unposted
    refine .inr ?_
    rw [State.port_attend_of_unposted hposted, State.port_updPort, if_pos hq]
  · refine .inl (State.gap_attend_of_runs s none ?_)
    rw [State.port_updPort, if_neg hq, hgap]

theorem gapGoesOn_quiet {t : State} (h : Quiet s t) (hgap : (s.port q).gap = some n) : GapGoesOn t q n := by
  cases h with
  | selnFall | ignoredRelease | release => exact gapGoesOn_updPort hgap (by exact fun _ => rfl)
  | tick | edgeTick => exact .inl (by rw [State.port_tickTaken]; exact hgap)
  | clock => exact .inl hgap
  | clockPosted =>
    refine .inl (State.gap_attend_of_runs s none ?_)
    rw [State.port_postClock]
    split <;> exact hgap
  | gapEnd x => exact gapGoesOn_gapEnd x hgap

theorem gapGoesOn_effect {t : State} {c : Instr} (h : Effect s c t) (hgap : (s.port q).gap = some n) :
    GapGoesOn t q n := by
  cases h with
  | stands => exact .inl hgap
  | request _ _ ht =>
    obtain ⟨u, scan, acked, a, hchange, -, rfl⟩ := ht
    have hgoes := gapGoesOn_change hchange hgap acked
    rwa [GapGoesOn, State.gap_respond]
  | event _ _ hchange => exact gapGoesOn_change hchange hgap none
  | quiet _ hq => exact gapGoesOn_quiet hq hgap
  | reset => exact .inr (by rw [State.port_deviceReset]; rfl)
  | release hb pen => exact .inl (by rw [State.port_resetReleased]; exact hgap)

/-- R143: GAP_END ends the gap of its port and computes ATTN_x again. -/
theorem exec_gapEnd (hr : s.inReset = false) (ha : AttentionLaw s) (hgap : (s.port q).gap = some n) :
    exec (.gapEnd q) s =
      .next (s.updPort q fun x => { x with gap := none, attn := s.attached q && s.unmaskedPending q }) := by
  have halike : ∀ r, NoticesAlike s (s.updPort q fun x => { x with gap := none }) r := fun r =>
    noticesAlike_updPort s (by exact fun _ => ⟨rfl, rfl, rfl, rfl, rfl, rfl⟩)
  have hexec : exec (.gapEnd q) s = .next (s.attend none (s.updPort q fun x => { x with gap := none })) := by
    change execGapEnd q s = _
    rw [execGapEnd, hr, hgap]
    rfl
  rw [hexec]
  generalize hu : (s.updPort q fun x => { x with gap := none }) = u at halike ⊢
  congr 1
  refine State.ext_of_reads (fun i => ?_) (fun l => ?_) (fun r => ?_) (fun i => ?_) ?_ ?_ ?_ ?_ ?_ ?_
  case refine_1 => rw [u.slot_attend s none, ← hu]; rfl
  case refine_2 => rw [u.line_attend s none, ← hu]; rfl
  case refine_4 => rw [u.input_attend s none, ← hu]; rfl
  case refine_3 =>
    rw [State.port_updPort]
    split
    · rename_i hrq
      subst hrq
      have hlevel : u.attnLevel r = (s.attached r && s.unmaskedPending r) := by
        rw [State.attnLevel, (halike r).attached, (halike r).unmaskedPending, ← hu, State.port_updPort, if_pos rfl]
        cases (s.port r).mode <;> exact Bool.and_true _
      rw [State.port_attend_of_unposted (halike r).unposted, hlevel, ← hu, State.port_updPort, if_pos rfl]
    · rename_i hrq
      exact State.port_attend_of_stands ha (fun i => by rw [(halike r).slot])
        (by rw [← hu, State.port_updPort, if_neg hrq]) (by rw [← hu]; rfl)
  all_goals subst hu; rfl

end Runs

end Sys2Proof.Machine

open Sys2Proof Sys2Proof.Machine

/-- Settles O20: a gap begins only where the attention units begin one, and only what takes the gap away ends it. -/
theorem gapsBeginAndEnd : Obligations.GapsBeginAndEnd :=
  ⟨fun _ s _ _ h hgap => gapBegins_effect s (effect_of_exec h) hgap,
    fun _ _ _ _ _ h hgap => gapGoesOn_effect (effect_of_exec h) hgap,
    fun _ _ _ hr ha hgap => exec_gapEnd hr ha hgap⟩

end

section
/-! SUPPORT. SET_CLOCK and RESUME (R126 to R129). -/

namespace Sys2Proof.Machine

variable (s : State)

/-! ## The clock block moved, with CLOCK posted or not (R128) -/

/-- The clock block becomes `d`, and CLOCK is posted where `posts` says. -/
def State.clockMoved (s : State) (d : Clock) (posts : Bool) : State :=
  if posts then (s.setClockBlock d).postClock else s.setClockBlock d

/-- R128: the port of a moved clock block. -/
theorem State.port_clockMoved (d : Clock) (posts : Bool) (q : Port) :
    (s.clockMoved d posts).port q =
      { s.port q with clockFlag := (s.port q).clockFlag || (posts && s.attached q) } := by
  have hstands : s.port q = { s.port q with clockFlag := (s.port q).clockFlag || false } := by
    rw [Bool.or_false]
  cases posts with
  | false => exact hstands
  | true =>
    rw [State.clockMoved, if_pos rfl, State.port_postClock]
    change (if s.attached q = true then { s.port q with clockFlag := true } else s.port q) = _
    cases s.attached q with
    | false => exact hstands
    | true => rw [if_pos rfl, Bool.true_and, Bool.or_true]

theorem State.clock_clockMoved (d : Clock) (posts : Bool) : (s.clockMoved d posts).clock = d := by cases posts <;> rfl

theorem State.inputs_clockMoved (d : Clock) (posts : Bool) : (s.clockMoved d posts).inputs = s.inputs := by
  cases posts <;> rfl

theorem State.pending_clockMoved (d : Clock) (posts : Bool) : (s.clockMoved d posts).pending = s.pending := by
  cases posts <;> rfl

theorem State.tableStands_clockMoved (d : Clock) (posts : Bool) : TableStands s (s.clockMoved d posts) := by
  cases posts <;> exact ⟨fun _ => rfl, rfl, fun _ => rfl⟩

theorem State.yieldLaw_clockMoved {s : State} (d : Clock) (posts : Bool) (hy : YieldLaw s) :
    YieldLaw (s.clockMoved d posts) := by
  have htable := s.tableStands_clockMoved d posts
  exact (sameBoard_of_stands htable).yieldLaw (fun j => by rw [State.leaseAt, htable.1, ← State.leaseAt]) hy

theorem tableStands_trans {s t u : State} (h : TableStands s t) (h' : TableStands t u) : TableStands s u := by
  obtain ⟨hslot, hqueue, hline⟩ := h
  obtain ⟨hslot', hqueue', hline'⟩ := h'
  exact ⟨fun i => (hslot' i).trans (hslot i), hqueue'.trans hqueue, fun l => (hline' l).trans (hline l)⟩

/-- What a move of the clock block leaves. -/
def MovedClock (s t : State) (d : Clock) (posts : Bool) : Prop :=
  TableStands s t ∧ t.inputs = s.inputs ∧ t.pending = s.pending ∧ t.clock = d
    ∧ ∀ q : Port, PortState.steady
        { s.port q with clockFlag := (s.port q).clockFlag || (posts && s.attached q) } (t.port q) = true

theorem movedClock_of_reads {s t : State} {d : Clock} {posts : Bool} (htable : TableStands (s.clockMoved d posts) t)
    (haside : Aside (s.clockMoved d posts) t) (hsteady : PortsSteady (s.clockMoved d posts) t) :
    MovedClock s t d posts := by
  obtain ⟨hclock, hinputs, -, -, hpending⟩ := haside
  refine ⟨tableStands_trans (s.tableStands_clockMoved d posts) htable, hinputs.trans (s.inputs_clockMoved d posts),
    hpending.trans (s.pending_clockMoved d posts), hclock.trans (s.clock_clockMoved d posts), fun q => ?_⟩
  rw [← s.port_clockMoved d posts q]
  exact hsteady q

/-- R127, R129: a request that moves the clock block. -/
theorem exec_of_clockMoved {s : State} {p : Port} {r : Request} {d : Clock} {posts : Bool} {answer : State → Answer}
    (hn : s.nextRequest = some (p, r)) (hy : YieldLaw s)
    (h : s.taken p r = s.conclude p r.command false (s.clockMoved d posts) answer) :
    ∃ t, exec r.instr s = .next t ∧ MovedClock s t d posts
      ∧ Answered s t p r.command (answer (s.clockMoved d posts)).status (answer (s.clockMoved d posts)).data := by
  obtain ⟨t, hexec, htable, haside, hsteady, hpointer, hanswer, hothers⟩ := exec_of_conclude hn h
  rw [State.settle_of_yieldLaw _ (State.yieldLaw_clockMoved d posts hy)] at htable hanswer
  refine ⟨t, hexec, movedClock_of_reads htable haside hsteady, hpointer, hanswer, fun q hq => ?_⟩
  rw [hothers q hq, State.port_clockMoved]

/-! ## RESUME (R127) -/

/-- R156: the qualification count, for a clock that is not READY. -/
theorem Clock.qualBytes_of_not_ready {c : Clock} (h : c.state ≠ .ready) :
    c.qualBytes = if c.state = .reference then [0xFF, 0xFE]
      else c.qual.elim [0xFF, 0xFF] fun n => bytes16 (BitVec.ofNat 16 n) := by
  simp only [c.qualBytes_eq, h, or_false]

theorem State.taken_resume_of_ready {s : State} (p : Port) (h : s.clock.state = .ready) :
    s.taken p .resume = s.conclude p .resume false (s.clockMoved s.clock.enterReference true) fun t =>
      { status := .ok, data := bytes32 t.clock.count } := by
  change s.takeResume p = _
  rw [State.takeResume, h]
  rfl

theorem State.taken_resume_of_not_ready {s : State} (p : Port) (h : s.clock.state ≠ .ready) :
    s.taken p .resume =
      s.refuse p .resume { status := .state, data := s.clock.state.toByte :: s.clock.qualBytes } := by
  change s.takeResume p = _
  rw [State.takeResume]
  cases hs : s.clock.state with
  | ready => exact absurd hs h
  | start | reference | fallback => rfl

/-! ## SET_CLOCK (R129) -/

theorem policyOfByte_eq_none {b : Byte} : policyOfByte b = none ↔ 1 < b.toNat := by
  unfold policyOfByte
  split <;> simp_all
  omega

theorem resumeOfByte_eq_none {b : Byte} : resumeOfByte b = none ↔ 1 < b.toNat := by
  unfold resumeOfByte
  split <;> simp_all
  omega

theorem eq_zero_or_one {b : Byte} (h : b.toNat ≤ 1) : b = 0 ∨ b = 1 := by
  obtain h | h : b.toNat = 0 ∨ b.toNat = 1 := by omega
  · exact .inl (eq_of_toNat h)
  · exact .inr (eq_of_toNat h)

theorem policyOfByte_of_le {b : Byte} (h : b.toNat ≤ 1) :
    policyOfByte b = some (if b = 0 then .continue else .freeze) := by
  obtain rfl | rfl := eq_zero_or_one h <;> rfl

theorem resumeOfByte_of_le {b : Byte} (h : b.toNat ≤ 1) :
    resumeOfByte b = some (if b = 0 then .manual else .auto) := by
  obtain rfl | rfl := eq_zero_or_one h <;> rfl

theorem trimOf_eq_none {t : Ticks} : trimOf t = none ↔ 255 < t.toInt.natAbs := by
  rw [trimOf]
  split <;> simp_all

theorem trimOf_of_le {t : Ticks} (h : t.toInt.natAbs ≤ 255) : trimOf t = some t.toInt := if_pos h

/-- R129: the clock under the settings, and in REFERENCE where they resume it. -/
def Clock.setClock (policy : Policy) (resume : ResumeMode) (trim : Int) (c : Clock) : Clock :=
  if c.state = .ready ∧ c.resume = .manual ∧ resume = .auto then (c.configure policy resume trim).enterReference
  else c.configure policy resume trim

/-- R119, R129: what a change of the policy makes of the tick in progress. -/
theorem Clock.tick_configure (policy : Policy) (resume : ResumeMode) (trim : Int) (c : Clock) :
    (c.configure policy resume trim).tick =
      if policy = c.policy ∨ ¬(c.state = .fallback ∨ c.state = .ready) then c.tick
      else if policy = .continue then some { counted := 0, length := 1000 } else none := by
  change (if policy = c.policy then c.tick else _) = _
  by_cases hpolicy : policy = c.policy
  · rw [if_pos hpolicy, if_pos (.inl hpolicy)]
  rw [if_neg hpolicy]
  cases hs : c.state with
  | start | reference => rw [if_pos (.inr (by simp))]
  | fallback | ready =>
    rw [if_neg (by simp [hpolicy])]
    cases policy <;> rfl

/-- R129: a SET_CLOCK in range. -/
theorem State.taken_setClock_of_inRange {s : State} (p : Port) {keep policy mode : Byte} {trim : Ticks}
    {policy' : Policy} {mode' : ResumeMode} {trim' : Int}
    (hbad : ¬((keep.getLsbD 0 = false ∧ policyOfByte policy = none)
      ∨ (keep.getLsbD 1 = false ∧ resumeOfByte mode = none) ∨ keep.getLsbD 2 = false ∧ trimOf trim = none))
    (hpolicy : (Setting.read (keep.getLsbD 0) (policyOfByte policy)).over s.clock.policy = policy')
    (hmode : (Setting.read (keep.getLsbD 1) (resumeOfByte mode)).over s.clock.resume = mode')
    (htrim : (Setting.read (keep.getLsbD 2) (trimOf trim)).over s.clock.trim = trim') :
    s.taken p (.setClock keep policy mode trim) =
      s.conclude p .setClock false
        (s.clockMoved (s.clock.setClock policy' mode' trim')
          (decide (s.clock.state = .ready ∧ s.clock.resume = .manual ∧ mode' = .auto)))
        fun t => { status := .ok, data := t.clock.state.toByte :: bytes32 t.clock.count } := by
  change s.takeSetClock p keep policy mode trim = _
  rw [State.takeSetClock, if_neg (by simpa only [Bool.or_eq_true, Setting.bad_read, or_assoc] using hbad)]
  simp only [hpolicy, hmode, htrim]
  rw [Clock.setClock]
  by_cases hresumes : s.clock.state = .ready ∧ s.clock.resume = .manual ∧ mode' = .auto
  · rw [if_pos hresumes, if_pos hresumes, decide_eq_true hresumes]
    rfl
  · rw [if_neg hresumes, if_neg hresumes, decide_eq_false hresumes]
    rfl

theorem State.taken_setClock_of_bad {s : State} (p : Port) {keep policy mode : Byte} {trim : Ticks}
    (hbad : (keep.getLsbD 0 = false ∧ policyOfByte policy = none)
      ∨ (keep.getLsbD 1 = false ∧ resumeOfByte mode = none) ∨ keep.getLsbD 2 = false ∧ trimOf trim = none) :
    s.taken p (.setClock keep policy mode trim) = s.refuse p .setClock { status := .range } :=
  if_pos (by simpa only [Bool.or_eq_true, Setting.bad_read, or_assoc] using hbad)

end Sys2Proof.Machine

open Sys2Proof Sys2Proof.Machine

/-- Settles O55: a RESUME in READY moves the clock block, and in another state it is refused. -/
theorem resumeReturnsToReference : Obligations.ResumeReturnsToReference := by
  intro s p hn hy ha
  refine ⟨fun hready => ?_, fun hready => ?_⟩
  · obtain ⟨t, hexec, ⟨htable, hinputs, hpending, hclock, hports⟩, hanswered⟩ :=
      exec_of_clockMoved hn hy (State.taken_resume_of_ready p hready)
    refine ⟨t, hexec, htable, hinputs, hpending, hclock, hports, ?_⟩
    rwa [State.clock_clockMoved] at hanswered
  · refine (exec_of_refuse hn hy ha (State.taken_resume_of_not_ready p hready)).trans ?_
    rw [Clock.qualBytes_of_not_ready hready]
    cases s.clock.qual <;> rfl

/-- Settles O54: SET_CLOCK moves the clock block as its settings say, or is refused. -/
theorem setClockAppliesSettings : Obligations.SetClockAppliesSettings := by
  intro s p keep policy mode trim hn hy ha bad c policy' mode' trim' resumes waits
  have hbad : bad ↔ (keep.getLsbD 0 = false ∧ policyOfByte policy = none)
      ∨ (keep.getLsbD 1 = false ∧ resumeOfByte mode = none) ∨ keep.getLsbD 2 = false ∧ trimOf trim = none := by
    rw [policyOfByte_eq_none, resumeOfByte_eq_none, trimOf_eq_none]
  refine ⟨fun h => exec_of_refuse hn hy ha (State.taken_setClock_of_bad p (hbad.1 h)), fun h => ?_⟩
  have hin : ∀ {k : Bool} {n m : Nat}, ¬(k = false ∧ m < n) → k = false → n ≤ m :=
    fun h hk => Nat.le_of_not_lt fun hlt => h ⟨hk, hlt⟩
  have hparts := not_or.1 h
  obtain ⟨hpolicyIn, hrest⟩ := hparts
  obtain ⟨hmodeIn, htrimIn⟩ := not_or.1 hrest
  have hpolicy : (Setting.read (keep.getLsbD 0) (policyOfByte policy)).over s.clock.policy = policy' :=
    Setting.over_read_eq fun hk => policyOfByte_of_le (hin hpolicyIn hk)
  have hmode : (Setting.read (keep.getLsbD 1) (resumeOfByte mode)).over s.clock.resume = mode' :=
    Setting.over_read_eq fun hk => resumeOfByte_of_le (hin hmodeIn hk)
  have htrim : (Setting.read (keep.getLsbD 2) (trimOf trim)).over s.clock.trim = trim' :=
    Setting.over_read_eq fun hk => trimOf_of_le (hin htrimIn hk)
  clear_value policy' mode' trim'
  obtain ⟨t, hexec, ⟨htable, hinputs, hpending, hclock, hports⟩, hanswered⟩ :=
    exec_of_clockMoved hn hy (State.taken_setClock_of_inRange p (hbad.not.1 h) hpolicy hmode htrim)
  rw [State.clock_clockMoved] at hanswered
  refine ⟨t, hexec, htable, hinputs, hpending, ?_⟩
  rw [hclock]
  by_cases hresumes : c.state = .ready ∧ c.resume = .manual ∧ mode' = .auto
  · have hset : s.clock.setClock policy' mode' trim' = (c.configure policy' mode' trim').enterReference :=
      if_pos hresumes
    rw [hset] at hanswered ⊢
    exact ⟨rfl, rfl, rfl, rfl, rfl, rfl, fun _ => ⟨rfl, rfl, rfl, rfl⟩, fun hno => absurd hresumes hno, hports,
      hanswered⟩
  · have hset : s.clock.setClock policy' mode' trim' = c.configure policy' mode' trim' := if_neg hresumes
    rw [hset] at hanswered ⊢
    exact ⟨rfl, rfl, rfl, rfl, rfl, rfl, fun hyes => absurd hyes hresumes,
      fun _ => ⟨rfl, rfl, rfl, c.tick_configure policy' mode' trim'⟩, hports, hanswered⟩

end

section
/-! SUPPORT. The tick, and the supervision of the reference (R98, R108, R116 to R128). -/

namespace Sys2Proof.Machine

variable (s : State)

/-! ## The clock block at a tick (R116, R117) -/

namespace Clock

variable {c : Clock}

theorem tickDue_iff : c.tickDue = true ↔ ∃ k ∈ c.tick, k.length ≤ k.counted := by
  rw [tickDue]
  cases c.tick <;> simp

theorem carried_eq : c.carried = c.tick.elim 0 fun k => k.counted - k.length := by
  rw [carried]
  cases c.tick <;> rfl

theorem source_of_reference (hs : c.state = .reference) : c.source = .reference := by rw [source, hs]

theorem source_of_running (hs : c.state ≠ .reference) (hf : c.frozen = false) : c.source = .local := by
  match hsource : c.source with
  | .local => rfl
  | .none =>
    rw [frozen, hsource] at hf
    cases hf
  | .reference =>
    rw [source] at hsource
    split at hsource
    · cases hsource
    · exact absurd ‹_› hs
    all_goals split at hsource <;> cases hsource

/-- R118: a tick of the local oscillator. -/
theorem tickMade_of_local (hs : c.state ≠ .reference) (hf : c.frozen = false) :
    c.tickMade = { c with count := c.count + 1, tick := some { counted := 0, length := 1000 } } := by
  rw [tickMade, source_of_running hs hf]
  rfl

/-- R117: a tick of the reference. -/
theorem tickMade_of_reference (hs : c.state = .reference) :
    c.tickMade =
      { c with
        count := c.count + 1
        correction := c.correct.1
        silence := if c.tickDue then c.silence else 0
        present := if c.tickDue then c.present else true
        tick := some { counted := c.carried, length := c.correct.2 } } := by
  rw [tickMade, source_of_reference hs]
  cases c.tickDue <;> rfl

theorem correct_of_untrimmed (h : c.trim = 0) : c.correct = (c.correction, 32) := if_pos h

theorem correct_of_below (h : c.trim ≠ 0) (hsum : c.correction + c.trim.natAbs < 32768) :
    c.correct = (c.correction + c.trim.natAbs, 32) := by
  rw [correct]
  exact (if_neg h).trans (if_neg (Nat.not_le.2 hsum))

theorem correct_of_reached (h : c.trim ≠ 0) (hsum : 32768 ≤ c.correction + c.trim.natAbs) :
    c.correct = (c.correction + c.trim.natAbs - 32768, if 0 < c.trim then 31 else 33) := by
  rw [correct]
  exact (if_neg h).trans (if_pos hsum)

end Clock

/-- R121: what a tick leaves. -/
theorem State.stands_tickTaken (hb : BitVec 4) :
    (s.tickTaken hb).slots = s.slots ∧ (s.tickTaken hb).queue = s.queue ∧ (s.tickTaken hb).ports = s.ports
      ∧ (s.tickTaken hb).pointer = s.pointer ∧ (s.tickTaken hb).pending = s.pending := by
  simp only [State.tickTaken, State.mapInputs, State.mapLines, State.updClock, and_self]

/-! ## The patterns at a tick (R98) -/

theorem Line.tick_of_unpatterned {x : Line} (h : x.pattern = none) : x.tick = x := by
  unfold Line.tick
  split
  · rename_i hocc
    rw [Line.pattern, hocc] at h
    cases h
  all_goals rfl

/-- The ticks since the origin of a pattern, after one more. -/
def Pulse.nextTick (u : Pulse) : Nat := u.k.elim 0 (· + 1)

theorem Pulse.advance_eq (u : Pulse) : u.advance = { u with k := some u.nextTick } := by
  cases hk : u.k <;> simp [Pulse.advance, Pulse.nextTick, hk]

theorem Pulse.level_advance (u : Pulse) : u.advance.level =
    if (u.delay.toNat ≤ u.nextTick ∧ (u.nextTick - u.delay.toNat) % u.period.toNat < u.onTime.toNat)
      ↔ u.activeHigh = true then .high else .low := by
  rw [u.advance_eq]
  change (if (decide (u.delay.toNat ≤ u.nextTick)
    && decide ((u.nextTick - u.delay.toNat) % u.period.toNat < u.onTime.toNat)) = u.activeHigh then Drive.high
    else .low) = _
  rw [← Bool.decide_and]
  refine if_congr ?_ rfl rfl
  rw [Bool.eq_iff_iff, decide_eq_true_iff]

theorem Line.tick_of_pulse {x : Line} {i : Fin 16} {u : Pulse} (h : x.occ = .bound i (.pulse u)) :
    x.tick = { x with occ := .bound i (.pulse u.advance), current := u.advance.level } := by
  rw [Line.tick, h]

/-! ## The samples at a tick (R108, R109, R111) -/

namespace HbInput

variable {x : HbInput} {high : Bool}

theorem sample_of_disabled (h : x.enabled = false) : x.sample high = x := by
  rw [sample, h]
  rfl

theorem sample_of_seeding (h : x.enabled = true) (hs : x.seeding = true) :
    x.sample high = { x with level := high, seeding := false } := by
  rw [sample, h, hs]
  rfl

/-- A sample that does not seed. -/
theorem sample_of_enabled (h : x.enabled = true) (hs : x.seeding = false) :
    x.sample high =
      if high = x.level then { x with stable := 0 }
      else if x.stable + 1 = x.debounce then
        { x with level := high, stable := 0, claims := if x.edge.matches high then x.claims + 1 else x.claims }
      else { x with stable := x.stable + 1 } := by
  rw [sample, h, hs]
  rfl

theorem pin_sample : (x.sample high).pin = x.pin := by
  unfold sample
  repeat' split
  all_goals rfl

end HbInput

theorem EdgeSel.matches_iff (e : EdgeSel) (high : Bool) : e.matches high = true ↔
    e = .both ∨ (e = .rising ∧ high = true) ∨ (e = .falling ∧ high = false) := by
  cases e <;> simp [EdgeSel.matches]

end Sys2Proof.Machine

open Sys2Proof Sys2Proof.Machine

/-- Settles O56: a tick does to the clock, to each line and to each input what the lemmas above say of it. -/
theorem tickAdvancesAllReaders : Obligations.TickAdvancesAllReaders := by
  intro s hb
  refine ⟨fun h => ?_, fun h => ?_⟩
  · change execTick hb s = _
    rw [execTick, h]
    rfl
  obtain ⟨-, hfrozen, -⟩ := s.tickReady_iff.1 h
  have hexec : exec (.tick hb) s = .next (s.tickTaken hb) := by
    change execTick hb s = _
    exact if_pos h
  obtain ⟨hslots, hqueue, hports, hpointer, hpending⟩ := s.stands_tickTaken hb
  refine ⟨s.tickTaken hb, hexec, hslots, hqueue, hports, hpointer, hpending, s.count_tickTaken h hb, fun hs => ?_, fun hs => ?_,
    fun m => ⟨fun hm => ?_, fun i u hu => ?_⟩, fun n => ?_⟩
  · rw [State.clock_tickTaken, Clock.tickMade_of_local hs hfrozen]
  · refine ⟨s.clock.correct.2, ?_, fun htrim => ?_, fun htrim => ⟨fun hsum => ?_, fun hsum => ?_⟩⟩
    all_goals rw [State.clock_tickTaken, Clock.tickMade_of_reference hs]
    · simp only [Clock.tickDue_iff, Clock.carried_eq]
      cases s.clock.tick <;> rfl
    · exact ⟨by rw [Clock.correct_of_untrimmed htrim], by rw [Clock.correct_of_untrimmed htrim]⟩
    · exact ⟨by rw [Clock.correct_of_below htrim hsum], by rw [Clock.correct_of_below htrim hsum]⟩
    · exact ⟨by rw [Clock.correct_of_reached htrim hsum],
        by rw [Clock.correct_of_reached htrim hsum]; exact Nat.sub_add_cancel hsum⟩
  · rw [State.line_tickTaken, Line.tick_of_unpatterned hm]
  · rw [State.line_tickTaken, Line.tick_of_pulse hu, Pulse.level_advance, Pulse.advance_eq, Pulse.nextTick]
    cases u.k <;> rfl
  · have hy : { (s.tickTaken hb).input n with pin := (s.input n).pin } = (s.input n).sample (hb.getLsbD n.val) := by
      rw [State.input_tickTaken, ← HbInput.pin_sample (x := s.input n) (high := hb.getLsbD n.val)]
    simp only [hy]
    refine ⟨fun hoff => HbInput.sample_of_disabled hoff, fun hon hseed => HbInput.sample_of_seeding hon hseed,
      fun hon hseed => ?_⟩
    rw [HbInput.sample_of_enabled hon hseed]
    refine ⟨fun hsame => if_pos hsame, fun hdiff hshort => (if_neg hdiff).trans (if_neg hshort), fun hdiff hfull => ?_⟩
    rw [if_neg hdiff, if_pos hfull]
    simp only [EdgeSel.matches_iff]
    split <;> rfl

end

section
/-! SUPPORT. The supervision of the reference (R119, R122 to R126, R128). -/

namespace Sys2Proof.Machine

/-! ## Events of the clock block (R128) -/

/-- What an event of the clock block makes: the block becomes `d`, and CLOCK is posted where `posts` says. -/
def State.clockEvent (s : State) (d : Clock) (posts : Bool) : State :=
  if posts then s.attend none (s.clockMoved d true) else s.clockMoved d false

theorem State.movedClock_clockEvent (s : State) (d : Clock) (posts : Bool) :
    MovedClock s (s.clockEvent d posts) d posts := by
  cases posts with
  | false =>
    exact movedClock_of_reads (t := s.clockMoved d false) ⟨fun _ => rfl, rfl, fun _ => rfl⟩ ⟨rfl, rfl, rfl, rfl, rfl⟩
      fun q => PortState.steady_self _
  | true =>
    exact movedClock_of_reads (t := s.attend none (s.clockMoved d true)) (s.tableStands_attend _ _) (State.aside_attend ⟨rfl, rfl, rfl, rfl, rfl⟩ _ _)
      (s.portsSteady_attend _ _)

theorem State.unanswered_clockEvent (s : State) (d : Clock) (posts : Bool) : Unanswered s (s.clockEvent d posts) := by
  cases posts with
  | false => exact ⟨rfl, fun _ => rfl⟩
  | true =>
    refine ⟨(State.pointer_attend _ _ _).trans rfl, fun q => ?_⟩
    change ((s.attend none (s.clockMoved d true)).port q).buffer = _
    rw [State.buffer_attend, State.port_clockMoved]

/-- What O57 says of a command that moves the clock block. -/
theorem moves_of_exec {s : State} {e : Instr} {d : Clock} {posts : Bool} (h : exec e s = .next (s.clockEvent d posts)) :
    ∃ t, exec e s = .next t ∧ TableStands s t ∧ t.inputs = s.inputs ∧ t.pending = s.pending
      ∧ Unanswered s t ∧ t.clock = d
      ∧ ∀ q : Port, PortState.steady
          { s.port q with clockFlag := (s.port q).clockFlag || (posts && s.attached q) } (t.port q) = true := by
  obtain ⟨htable, hinputs, hpending, hclock, hports⟩ := s.movedClock_clockEvent d posts
  exact ⟨_, h, htable, hinputs, hpending, s.unanswered_clockEvent d posts, hclock, hports⟩

/-! ## The clock block of a loss (R122, R124, R126) -/

theorem Clock.lost_of_silent {c : Clock} (hs : c.state = .start ∨ c.state = .fallback) :
    c.lost = { c with silence := 256, present := false, qual := none } := by
  obtain ⟨state⟩ := c
  obtain hs | hs := hs <;> cases hs <;> rfl

theorem Clock.lost_of_reference {c : Clock} (hs : c.state = .reference) :
    c.lost =
      { c with
        state := .fallback, silence := 256, present := false, qual := none
        tick := if c.policy = .continue then some { counted := 0, length := 1000 } else none } := by
  obtain ⟨state, count, policy⟩ := c
  cases hs
  cases policy <;> rfl

theorem Clock.lost_of_ready {c : Clock} (hs : c.state = .ready) :
    c.lost = { c with state := .fallback, silence := 256, present := false, qual := none } := by
  obtain ⟨state⟩ := c
  cases hs
  rfl

section Running

variable {s : State} (hr : s.inReset = false)

include hr

/-! ## A loss (R122, R124) -/

theorem exec_lossEvent_of_absent (hp : s.clock.present = false) :
    exec .lossEvent s = .next (s.clockEvent { s.clock with silence := 256 } false) := by
  change execLossEvent s = _
  rw [execLossEvent, hr, hp]
  rfl

theorem exec_lossEvent_of_silent (hp : s.clock.present = true)
    (hs : s.clock.state = .start ∨ s.clock.state = .fallback) :
    exec .lossEvent s = .next (s.clockEvent s.clock.lost false) := by
  change execLossEvent s = _
  rw [execLossEvent, hr, hp]
  obtain hs | hs := hs <;> rw [hs] <;> rfl

theorem exec_lossEvent_of_posted (hp : s.clock.present = true)
    (hs : s.clock.state = .reference ∨ s.clock.state = .ready) :
    exec .lossEvent s = .next (s.clockEvent s.clock.lost true) := by
  change execLossEvent s = _
  rw [execLossEvent, hr, hp]
  obtain hs | hs := hs <;> rw [hs] <;> rfl

/-! ## The qualification (R123, R126) -/

omit hr in
/-- R123, R126: the move of a qualification. -/
theorem State.qualify_edgeSeen :
    (s.clock.state = .start →
        (s.updClock Clock.edgeSeen).qualify = s.clockEvent s.clock.edgeSeen.enterReference false)
      ∧ (s.clock.state = .fallback → s.clock.resume = .manual →
        (s.updClock Clock.edgeSeen).qualify =
          s.clockEvent { s.clock.edgeSeen with state := .ready, qual := none } true)
      ∧ (s.clock.state = .fallback → s.clock.resume = .auto →
        (s.updClock Clock.edgeSeen).qualify = s.clockEvent s.clock.edgeSeen.enterReference true) := by
  have hstate : (s.updClock Clock.edgeSeen).clock.state = s.clock.state := rfl
  have hresume : (s.updClock Clock.edgeSeen).clock.resume = s.clock.resume := rfl
  rw [State.qualify, hstate, hresume]
  refine ⟨fun hs => ?_, fun hs hm => ?_, fun hs hm => ?_⟩
  · rw [hs]
    rfl
  all_goals
    rw [hs, hm]
    rfl

theorem exec_qualificationEvent_of_qualifies (hs : s.clock.state = .start ∨ s.clock.state = .fallback) :
    exec .qualificationEvent s = .next (s.updClock Clock.edgeSeen).qualify := by
  change execQualificationEvent s = _
  rw [execQualificationEvent, hr]
  obtain hs | hs := hs <;> rw [hs] <;> rfl

theorem exec_qualificationEvent_of_qualified (hs : s.clock.state = .reference ∨ s.clock.state = .ready) :
    exec .qualificationEvent s = .next (s.clockEvent s.clock false) := by
  change execQualificationEvent s = _
  rw [execQualificationEvent, hr]
  obtain hs | hs := hs <;> rw [hs] <;> rfl

/-! ## The edges (R116, R122, R123) -/

/-- R123: an edge towards the qualification. -/
theorem exec_refclkEdge_of_qualifying (hs : s.clock.state = .start ∨ s.clock.state = .fallback) :
    exec .refclkEdge s = .next (s.clock.qual.elim
      (s.clockEvent { s.clock.edgeSeen with qual := some 0 } false)
      fun n => if n < 2047 then s.clockEvent { s.clock.edgeSeen with qual := some (n + 1) } false
        else (s.updClock Clock.edgeSeen).qualify) := by
  change execRefclkEdge s = _
  rw [execRefclkEdge, hr]
  cases s.clock.qual with
  | none => obtain hs | hs := hs <;> rw [hs] <;> rfl
  | some n =>
    rw [Option.elim_some, apply_ite Host.Outcome.next]
    obtain hs | hs := hs <;> rw [hs] <;> rfl

theorem exec_refclkEdge_of_ready (hs : s.clock.state = .ready) :
    exec .refclkEdge s = .next (s.clockEvent s.clock.edgeSeen false) := by
  change execRefclkEdge s = _
  rw [execRefclkEdge, hr, hs]
  rfl

omit hr in
/-- R116: the clock that has counted an edge. -/
def Clock.edgeCounted (c : Clock) : Clock := { c.edgeSeen with tick := c.tick.map TickProgress.count }

omit hr in
theorem Clock.tickDue_edgeCounted {c : Clock} :
    c.edgeCounted.tickDue = true ↔ ∃ k ∈ c.tick, k.length ≤ k.counted + 1 := by
  rw [Clock.tickDue_iff, Clock.edgeCounted]
  cases c.tick <;> simp [TickProgress.count]

/-- R116: when an edge completes a tick that can be made. -/
theorem tickComplete_edgeCounted (hs : s.clock.state = .reference) :
    (s.setClockBlock s.clock.edgeCounted).tickComplete = true ↔
      s.eventsOpen = false ∧ ∃ k ∈ s.clock.tick, k.length ≤ k.counted + 1 := by
  have hopen : (s.setClockBlock s.clock.edgeCounted).eventsOpen = s.eventsOpen := rfl
  have hfrozen : s.clock.edgeCounted.frozen = false := by
    rw [Clock.frozen, Clock.source_of_reference (c := s.clock.edgeCounted) hs]
    rfl
  rw [State.tickComplete, Bool.and_eq_true, State.tickReady_iff, hopen, State.clock_setClockBlock,
    Clock.tickDue_edgeCounted]
  exact and_congr_left' ⟨fun ⟨_, _, h⟩ => h, fun h => ⟨hr, hfrozen, h⟩⟩

theorem exec_refclkEdge_of_reference (hs : s.clock.state = .reference) :
    exec .refclkEdge s = .next
      (if (s.setClockBlock s.clock.edgeCounted).tickComplete then
        (s.setClockBlock s.clock.edgeCounted).tickTaken s.pins
      else s.clockEvent s.clock.edgeCounted false) := execRefclkEdge_reference s hr hs

/-- R116, R121: the edge that completes a tick makes it. -/
theorem edge_makes_tick (hs : s.clock.state = .reference)
    (h : s.eventsOpen = false ∧ ∃ k ∈ s.clock.tick, k.length ≤ k.counted + 1) :
    ∃ t, exec .refclkEdge s = .next t ∧ t.clock.count = s.clock.count + 1
      ∧ exec (.tick s.pins) (s.setClockBlock s.clock.edgeCounted) = .next t := by
  have hcomplete := (tickComplete_edgeCounted hr hs).2 h
  obtain ⟨hready, -⟩ := Bool.and_eq_true_iff.1 hcomplete
  refine ⟨_, (exec_refclkEdge_of_reference hr hs).trans (congrArg _ (if_pos hcomplete)), State.count_tickTaken _ hready _,
    ?_⟩
  change execTick s.pins _ = _
  exact if_pos hready

end Running

end Sys2Proof.Machine

open Sys2Proof Sys2Proof.Machine

/-- Settles O57: each event of the supervision moves the clock block as the lemmas above say. -/
theorem referenceSupervisionMovesClock : Obligations.ReferenceSupervisionMovesClock := by
  intro s hr c local0 ref0 moves lost seen toReference toReady qualifies
  have qualify : ∀ {e : Instr}, (c.state = .start ∨ c.state = .fallback →
      exec e s = .next (s.updClock Clock.edgeSeen).qualify) → qualifies e := fun he => by
    obtain ⟨hstart, hmanual, hauto⟩ := s.qualify_edgeSeen
    exact ⟨fun hs => moves_of_exec ((he (.inl hs)).trans (congrArg _ (hstart hs))),
      fun hs hm => moves_of_exec ((he (.inr hs)).trans (congrArg _ (hmanual hs hm))),
      fun hs hm => moves_of_exec ((he (.inr hs)).trans (congrArg _ (hauto hs hm)))⟩
  refine ⟨fun hp => moves_of_exec (exec_lossEvent_of_absent hr hp), fun hp => ⟨fun hs => ?_, fun hs => ?_, fun hs => ?_⟩,
    qualify fun hs => exec_qualificationEvent_of_qualifies hr hs,
    fun hs => moves_of_exec (exec_qualificationEvent_of_qualified hr hs), fun hs => ⟨fun hq => ?_, fun n hq => ?_⟩,
    fun hs => moves_of_exec (exec_refclkEdge_of_ready hr hs), fun hs => ⟨fun hnot => ?_, fun hcomplete => ?_⟩⟩
  · exact moves_of_exec ((exec_lossEvent_of_silent hr hp hs).trans (by rw [Clock.lost_of_silent hs]))
  · exact moves_of_exec ((exec_lossEvent_of_posted hr hp (.inl hs)).trans (by rw [Clock.lost_of_reference hs]))
  · exact moves_of_exec ((exec_lossEvent_of_posted hr hp (.inr hs)).trans (by rw [Clock.lost_of_ready hs]))
  · have hexec := exec_refclkEdge_of_qualifying hr hs
    rw [show s.clock.qual = none from hq] at hexec
    exact moves_of_exec hexec
  · have hexec := exec_refclkEdge_of_qualifying hr hs
    rw [show s.clock.qual = some n from hq] at hexec
    exact ⟨fun hn => moves_of_exec (hexec.trans (congrArg _ (if_pos hn))),
      fun hn => qualify fun _ => hexec.trans (congrArg _ (if_neg (Nat.not_lt.2 hn)))⟩
  · exact moves_of_exec ((exec_refclkEdge_of_reference hr hs).trans
      (congrArg _ (if_neg ((tickComplete_edgeCounted hr hs).not.2 hnot))))
  · exact edge_makes_tick hr hs hcomplete

end

section
/-! SUPPORT. What the part does by itself (R116, R118, R122, R142), and the device reset (R176, R177). -/

namespace Sys2Proof.Machine

variable (s : State)

/-! ## A period of the local oscillator -/

theorem Clock.source_eq_local_iff {c : Clock} : c.source = .local ↔
    c.state = .start ∨ ((c.state = .fallback ∨ c.state = .ready) ∧ c.policy = .continue) := by
  rw [Clock.source]
  cases c.state <;> cases c.policy <;> simp

/-- R116, R118, R122: the clock block after a period, of a clock whose tick is not due. -/
theorem Clock.oscillate_eq {c : Clock} (hdue : c.source = .local → c.tickDue = false) :
    c.oscillate =
      { c with
        silence := min (c.silence + 1) 256
        tick :=
          if c.state = .start ∨ ((c.state = .fallback ∨ c.state = .ready) ∧ c.policy = .continue) then
            c.tick.map fun k => { k with counted := min (k.counted + 1) k.length }
          else c.tick } := by
  have htick : c.oscillate.tick =
      if c.state = .start ∨ ((c.state = .fallback ∨ c.state = .ready) ∧ c.policy = .continue) then
        c.tick.map fun k => { k with counted := min (k.counted + 1) k.length }
      else c.tick := by
    rw [← if_congr Clock.source_eq_local_iff rfl rfl]
    match hs : c.source with
    | .none | .reference => simp [Clock.oscillate, hs]
    | .local =>
      have hdue := hdue hs
      cases hk : c.tick with
      | none => simp [Clock.oscillate, hs, hk]
      | some k =>
        have hcount : k.counted < k.length := by simpa [Clock.tickDue, hk] using hdue
        simp [Clock.oscillate, hs, hk, TickProgress.count, Nat.min_eq_left hcount]
  rw [← htick]
  rfl

theorem State.oscillate_of_running {s : State} (hr : s.inReset = false) :
    s.oscillate = (s.setClockBlock s.clock.oscillate).mapPorts fun _ x => x.oscillate := by
  rw [State.oscillate, hr]
  rfl

/-! ## The part with no command waiting (log entries 4 and 5) -/

theorem step_of_idle {s : State} (hp : s.pending = []) : step s = idleStep s := by rw [step, hp]

/-- One of the events that stand open is taken. -/
theorem idleStep_takes_event {s : State} (h : s.openEvents ≠ []) :
    ∃ c ∈ s.openEvents, ∃ k : Nat, idleStep s = exec c { s with choices := k } := by
  unfold idleStep
  split
  · exact absurd ‹_› h
  · rename_i c hc
    exact ⟨c, by rw [hc]; exact List.mem_singleton_self c, s.choices, rfl⟩
  · rename_i c d cs hc
    refine ⟨_, ?_, s.choices + 1, rfl⟩
    have hlt : Config.eventChoice s.choices % (cs.length + 2) < (c :: d :: cs).length := Nat.mod_lt _ (Nat.succ_pos _)
    rw [hc, List.getD_eq_getElem _ _ hlt]
    exact List.getElem_mem _

theorem idleStep_oscillates {s : State} (h : s.openEvents = []) : idleStep s = .next s.oscillate := by
  rw [idleStep, h]

theorem idleStep_of_one {s : State} {c : Instr} (h : s.openEvents = [c]) : idleStep s = exec c s := by
  rw [idleStep, h]

theorem run_succ_of_step {M : Host.Core} {s t : M.State} (h : M.step s = .next t) (k : Nat) :
    M.run (k + 1) s = M.run k t := by
  rw [Host.Core.run, h]

/-! ## A local tick of 1000 periods (R116, R118) -/

/-- The state with `k` periods counted by the local tick in progress, and by the silence. -/
def State.atPeriod (s : State) (k : Nat) : State :=
  s.setClockBlock
    { s.clock with silence := min (s.clock.silence + k) 256, tick := some { counted := k, length := 1000 } }

/-- What O60 assumes of a state: nothing else to do while the local tick in progress is counted. -/
structure OnlyTicks (s : State) : Prop where
  running : s.inReset = false
  idle : s.pending = []
  quiet : s.openEvents = []
  gaps : ∀ q, (s.port q).gap = none
  lost : s.clock.present = false
  oscillates : s.clock.state = .start ∨ (s.clock.state = .fallback ∧ s.clock.policy = .continue)

namespace OnlyTicks

variable {s : State} (h : OnlyTicks s)

include h

theorem source : s.clock.source = .local := Clock.source_eq_local_iff.2 (h.oscillates.imp_right (And.imp_left .inl))

theorem not_frozen (k : Nat) : (s.atPeriod k).clock.frozen = false := by
  change (s.clock.source == .none) = false
  rw [h.source]
  rfl

/-- The events that stand open after `k` periods: at most the tick. -/
theorem openEvents_atPeriod (k : Nat) :
    (s.atPeriod k).openEvents = if (s.atPeriod k).tickComplete then [.tick s.pins] else [] := by
  have hquiet := h.quiet
  rw [State.openEvents, h.running, if_neg Bool.false_ne_true] at hquiet
  simp only [List.append_eq_nil_iff] at hquiet
  obtain ⟨⟨⟨⟨⟨⟨⟨⟨⟨hslots, hlines⟩, hclaims⟩, hrequest⟩, -⟩, -⟩, hA⟩, hB⟩, hC⟩, hD⟩ := hquiet
  have hreset : (s.atPeriod k).inReset = false := h.running
  have hpresent : (s.atPeriod k).clock.present = false := h.lost
  rw [State.openEvents, hreset, if_neg Bool.false_ne_true, hpresent, Bool.false_and, if_neg Bool.false_ne_true,
    List.append_nil]
  generalize hlast : (if (s.atPeriod k).tickComplete = true then [Instr.tick (s.atPeriod k).pins] else []) = last
  have hfirst : allSlots.flatMap (s.atPeriod k).openAt
        ++ (allLines.filter (s.atPeriod k).quarantineDue).map (fun l => Instr.quarantineDeadline l.val)
        ++ (allInputs.filter fun n => 0 < ((s.atPeriod k).input n).claims).map (fun n => Instr.renewalClaim n.val) = [] := by
    rw [List.append_eq_nil_iff, List.append_eq_nil_iff]
    exact ⟨⟨hslots, hlines⟩, hclaims⟩
  have hgaps : ∀ q, (s.atPeriod k).openGap q = [] := fun q => by
    rw [State.openGap, show ((s.atPeriod k).port q).gap = none from h.gaps q]
  have hnext : (s.atPeriod k).nextRequest = s.nextRequest := rfl
  rw [hfirst, hgaps, hgaps, hgaps, hgaps, hnext, hrequest]
  simp only [List.nil_append, List.append_nil, ← hlast]
  rfl

theorem eventsOpen_atPeriod (k : Nat) : (s.atPeriod k).eventsOpen = false :=
  State.eventsOpen_of_openEvents (s := s) h.running h.quiet

theorem tickReady_atPeriod (k : Nat) : (s.atPeriod k).tickReady = true :=
  (State.tickReady_iff _).2 ⟨h.running, h.not_frozen k, h.eventsOpen_atPeriod k⟩

theorem tickComplete_atPeriod (k : Nat) : (s.atPeriod k).tickComplete = decide (1000 ≤ k) := by
  rw [State.tickComplete, h.tickReady_atPeriod k, Bool.true_and]
  rfl

/-- A period counted. -/
theorem oscillate_atPeriod (k : Nat) : (s.atPeriod k).oscillate = s.atPeriod (k + 1) := by
  have hsource : (s.atPeriod k).clock.source = .local := h.source
  have hclock : (s.atPeriod k).clock.oscillate = (s.atPeriod (k + 1)).clock := by
    have hsilence : min (min (s.clock.silence + k) 256 + 1) 256 = min (s.clock.silence + (k + 1)) 256 := by omega
    rw [Clock.oscillate, hsource]
    exact congrArg (fun n => { s.clock with silence := n, tick := some { counted := k + 1, length := 1000 } }) hsilence
  rw [State.oscillate_of_running (s := s.atPeriod k) h.running, hclock]
  generalize hu : ((s.atPeriod k).setClockBlock (s.atPeriod (k + 1)).clock) = u
  have hsame : u = s.atPeriod (k + 1) := by rw [← hu]; rfl
  have hports : ∀ q, (u.port q).oscillate = u.port q := fun q => by
    have hgap : (u.port q).gap = none := by rw [hsame]; exact h.gaps q
    rw [PortState.oscillate, hgap]
    exact congrArg (fun g => { u.port q with gap := g }) hgap.symm
  refine (State.ext_of_reads (s := u) (t := u.mapPorts fun _ x => x.oscillate) (fun _ => rfl) (fun _ => rfl)
    (fun q => ?_) (fun _ => rfl) rfl rfl rfl rfl rfl rfl).trans hsame
  rw [State.port_mapPorts, hports]

/-- Below 1000 periods, a step counts one more. -/
theorem step_atPeriod {k : Nat} (hk : k < 1000) : step (s.atPeriod k) = .next (s.atPeriod (k + 1)) := by
  have hnone : (s.atPeriod k).openEvents = [] := by
    rw [h.openEvents_atPeriod, h.tickComplete_atPeriod, decide_eq_false (Nat.not_le.2 hk)]
    rfl
  rw [step_of_idle (s := s.atPeriod k) h.idle, idleStep_oscillates hnone, h.oscillate_atPeriod]

/-- After 1000 periods, a step makes the tick. -/
theorem step_atThousand : step (s.atPeriod 1000) = .next ((s.atPeriod 1000).tickTaken s.pins) := by
  have hone : (s.atPeriod 1000).openEvents = [.tick s.pins] := by
    rw [h.openEvents_atPeriod, h.tickComplete_atPeriod]
    rfl
  rw [step_of_idle (s := s.atPeriod 1000) h.idle, idleStep_of_one hone]
  change execTick s.pins _ = _
  exact if_pos (h.tickReady_atPeriod 1000)

theorem run_atPeriod (k : Nat) : ∀ j, j + k ≤ 1000 → core.run k (s.atPeriod j) = .next (s.atPeriod (j + k)) := by
  induction k with
  | zero => exact fun j _ => rfl
  | succ k ih =>
    intro j hj
    have hrun := (run_succ_of_step (M := core) (h.step_atPeriod (by omega)) k).trans (ih (j + 1) (by omega))
    rwa [Nat.add_right_comm, Nat.add_assoc] at hrun

end OnlyTicks

theorem State.atPeriod_zero {s : State} (hsilence : s.clock.silence ≤ 256)
    (htick : s.clock.tick = some { counted := 0, length := 1000 }) : s.atPeriod 0 = s := by
  have hclock : { s.clock with
      silence := min (s.clock.silence + 0) 256, tick := some { counted := 0, length := 1000 } } = s.clock := by
    rw [Nat.add_zero, Nat.min_eq_left hsilence, ← htick]
  rw [State.atPeriod, hclock]
  rfl

/-! ## The device reset (R176) -/

theorem State.input_deviceReset (n : Fin 4) : s.deviceReset.input n = { HbInput.reset with pin := (s.input n).pin } := by
  simp [State.deviceReset, State.input]

theorem State.misoByte_of_ignored {s : State} {q : Port} {x : Transaction} (h : (s.port q).transaction = x.ignore)
    (k : Nat) : s.misoByte q k = none := by
  rw [State.misoByte, h]
  cases x <;> rfl

end Sys2Proof.Machine

open Sys2Proof Sys2Proof.Machine

/-- Settles O3: with no command waiting an open event is taken, and with none open a period passes. -/
theorem idlePartActsByItself : Obligations.IdlePartActsByItself := by
  intro s hp
  rw [step_of_idle hp]
  refine ⟨idleStep_takes_event, fun hnone hr => ?_, fun hr => ?_⟩
  · have hclock := Clock.oscillate_eq (State.tickDue_of_openEvents hr hnone)
    refine ⟨s.oscillate, idleStep_oscillates hnone, tableStands_oscillate s, ?_⟩
    rw [State.oscillate_of_running hr, ← hclock]
    exact ⟨rfl, rfl, rfl, rfl, hr, hp, fun q => State.port_mapPorts _ _ q⟩
  · have hnone : s.openEvents = [] := if_pos hr
    rw [idleStep_oscillates hnone, State.oscillate, if_pos hr]

/-- Settles O60, by induction on the periods. -/
theorem localTickTakesThousandPeriods : Obligations.LocalTickTakesThousandPeriods := by
  intro s hr hp hnone hgaps hlost hsilence hlocal htick
  have h : OnlyTicks s := ⟨hr, hp, hnone, hgaps, hlost, hlocal⟩
  have hrun : ∀ k, k ≤ 1000 → core.run k s = .next (s.atPeriod k) := fun k hk => by
    have := h.run_atPeriod k 0 (by omega)
    rwa [State.atPeriod_zero hsilence htick, Nat.zero_add] at this
  have hstate : (s.atPeriod 1000).clock.state ≠ .reference := by
    change s.clock.state ≠ _
    obtain hs | ⟨hs, -⟩ := hlocal <;> rw [hs] <;> decide
  refine ⟨fun k hk => ⟨_, hrun k hk, ⟨fun _ => rfl, rfl, fun _ => rfl⟩, rfl⟩, _, _, hrun 1000 le_rfl, h.step_atThousand, ?_⟩
  rw [State.clock_tickTaken, Clock.tickMade_of_local hstate (h.not_frozen 1000)]
  exact ⟨rfl, rfl⟩

/-- Settles O50: what the reset and its release leave, field by field. -/
theorem deviceResetAndRelease : Obligations.DeviceResetAndRelease := by
  refine ⟨fun s => ⟨s.deviceReset, rfl, rfl, rfl, rfl, State.slot_reset, State.line_reset, fun q => ?_, fun n => ?_,
    rfl, rfl, rfl, rfl, rfl, rfl, rfl, rfl, rfl, rfl⟩, fun s hb pen hr => ?_⟩
  · have hport := s.port_deviceReset q
    refine ⟨?_, ?_, ?_, ?_, ?_, ?_, ?_, ?_, ?_, ?_, ?_, ?_, State.attached_of_inReset rfl q,
      State.misoByte_of_ignored (by rw [hport])⟩
    all_goals
      rw [hport]
      rfl
  · rw [State.input_deviceReset]
    exact ⟨rfl, rfl, rfl, rfl, rfl, rfl⟩
  · refine ⟨s.resetReleased hb pen, if_pos hr, rfl, ⟨fun _ => rfl, rfl, fun _ => rfl⟩, rfl,
      s.input_resetReleased hb pen, rfl, rfl, fun q => ⟨s.port_resetReleased hb pen q, ?_⟩, rfl⟩
    have hattached : (s.resetReleased hb pen).attached q =
        (!false && ((s.resetReleased hb pen).port q).pen && !((s.resetReleased hb pen).port q).cmdDetach) := rfl
    rw [hattached, State.port_resetReleased]
    rfl

end

section
/-! SUPPORT. What the settling of an event makes of each slot and each line (R11, R38, R68, R72, R76). -/

namespace Sys2Proof.Machine

variable (s : State)

theorem bindingLaw_keptByRounds : KeptByRounds fun t => BindingLaw t where
  grant hx hw _ hf h := bindingLaw_grantWaiter _ hx hw hf h
  start h := (sameBoard_startYields _).bindingLaw h
  preempt h := (leaves_endLease _ _ _).bindingLaw h
  withdraw h := (sameBoard_withdrawYields _).bindingLaw h

theorem KeptByRounds.closeRound {P : State → Prop} (h : KeptByRounds P) {s : State} (hs : P s) : P s.closeRound :=
  h.preemptAll (h.start hs) _

/-! ## What the statements say of a slot and of a line -/

section Moved

variable {u t : State} {a b : Lease} {j m : Fin 16}

theorem State.moved_self : u.moved a a = true := by simp [State.moved]

theorem State.moved_grant (hw : a.isWaiting = true) :
    u.moved a (a.grant u.clock.count (u.port a.holder).margin Notices.grantedOnly) = true := by
  cases hp : a.phase <;> simp_all [State.moved, Lease.isWaiting]

theorem State.moved_startYield {g : Holding} (hp : a.phase = .active g) (hwindow : (u.port a.holder).window ≠ 0) :
    u.moved a (a.startYield (u.ahead (u.port a.holder).window)) = true := by
  rw [State.moved, hp]
  simp only [beq_eq_false_iff_ne.2 hwindow, Bool.false_eq_true, if_false, BEq.rfl, Bool.or_true]

theorem State.moved_finish {g : Holding} (hp : a.phase = .active g) (hwindow : (u.port a.holder).window = 0) :
    u.moved a (a.finish .preempted) = true := by
  simp [State.moved, hp, hwindow]

theorem State.moved_withdraw : u.moved a a.withdraw = true := by
  cases hp : a.phase <;> simp [State.moved, Lease.withdraw, hp]

theorem State.slotMoved_of_free (hgen : (t.slot j).gen = (u.slot j).gen) (hu : u.leaseAt j = none)
    (ht : t.leaseAt j = none) : u.slotMoved t j = true := by
  simp [State.slotMoved, hgen, hu, ht]

theorem State.slotMoved_of_lease (hgen : (t.slot j).gen = (u.slot j).gen) (hu : u.leaseAt j = some a)
    (ht : t.leaseAt j = some b) (h : u.moved a b = true) : u.slotMoved t j = true := by
  simp [State.slotMoved, hgen, hu, ht, h]

theorem State.leftLine_iff {x : Line} : u.leftLine t m x = true ↔
    t.line m = x ∨ x.isFree = true ∧ ∃ w, u.waitingAt w = true ∧ t.line m = x.bind w := by
  rw [State.leftLine, Bool.or_eq_true, Bool.and_eq_true, beq_iff_eq]
  refine or_congr_right (and_congr_right fun _ => ⟨fun h => ?_, fun ⟨w, hw, hbind⟩ => ?_⟩)
  · cases hb : (t.line m).boundSlot with
    | none =>
      rw [hb] at h
      cases h
    | some w =>
      rw [hb] at h
      obtain ⟨hw, hbind⟩ := Bool.and_eq_true_iff.1 h
      exact ⟨w, hw, beq_iff_eq.1 hbind⟩
  · have hb : (t.line m).boundSlot = some w := by rw [hbind]; rfl
    rw [hb, hbind]
    simp [hw]

theorem State.lineMoved_of_unbound (h : (u.line m).boundSlot = none) :
    u.lineMoved t m = u.leftLine t m (u.line m) := by
  rw [State.lineMoved, h]

theorem State.lineMoved_of_bound (h : (u.line m).boundSlot = some j) : u.lineMoved t m = true ↔
    t.line m = u.line m
      ∨ u.preemptedIn t j = true ∧ u.leftLine t m ((u.line m).toFault u.clock.count) = true := by
  rw [State.lineMoved, h]
  simp only [Bool.or_eq_true, beq_iff_eq, Bool.and_eq_true]

theorem State.preemptedIn_iff : u.preemptedIn t j = true ↔
    ∃ a b, u.leaseAt j = some a ∧ t.leaseAt j = some b ∧ a.live = true ∧ b.cause = some .preempted := by
  unfold State.preemptedIn
  cases u.leaseAt j <;> cases t.leaseAt j <;> simp

theorem Lease.isEnded_of_cause {c : Cause} (h : b.cause = some c) : b.isEnded = true := by
  cases hp : b.phase <;> simp_all [Lease.cause, Lease.isEnded]

theorem State.lineMoved_self : u.lineMoved u m = true := by
  cases hb : (u.line m).boundSlot with
  | none =>
    rw [State.lineMoved_of_unbound hb]
    exact State.leftLine_iff.2 (.inl rfl)
  | some j => exact (State.lineMoved_of_bound hb).2 (.inl rfl)

end Moved

/-! ## The settling, step by step -/

/-- What the rounds so far, from `u` to `t`, made of the lease of slot `j`. A waiter that was granted is threatened by
no waiter, and a lease that started its yield is called on still. -/
inductive LeaseSettling (u t : State) (j : Fin 16) : Prop
  | free (hu : u.leaseAt j = none) (ht : t.leaseAt j = none)
  | stands {a : Lease} (hu : u.leaseAt j = some a) (ht : t.leaseAt j = some a)
  | granted {a : Lease} (hu : u.leaseAt j = some a) (hw : a.isWaiting = true)
      (ht : t.leaseAt j = some (a.grant u.clock.count (u.port a.holder).margin Notices.grantedOnly))
      (hcalm : t.unthreatened j)
  | started {a : Lease} {g : Holding} (hu : u.leaseAt j = some a) (hp : a.phase = .active g)
      (hwindow : (u.port a.holder).window ≠ 0)
      (ht : t.leaseAt j = some (a.startYield (u.ahead (u.port a.holder).window))) (hcalled : t.calledOn j = true)
  | ended {a : Lease} {g : Holding} (hu : u.leaseAt j = some a) (hp : a.phase = .active g)
      (hwindow : (u.port a.holder).window = 0) (ht : t.leaseAt j = some (a.finish .preempted))

/-- What the rounds so far made of the table, the queue and the lines. -/
structure Settling (u t : State) : Prop where
  only : OnlyTable u t
  binding : BindingLaw t
  waiters : QueueLaw t
  queue : t.queue.Sublist u.queue
  gen : ∀ j, (t.slot j).gen = (u.slot j).gen
  lease : ∀ j, LeaseSettling u t j
  line : ∀ m, u.lineMoved t m = true

theorem Settling.refl {u : State} (hbind : BindingLaw u) (hqueue : QueueLaw u) : Settling u u where
  only := .refl u
  binding := hbind
  waiters := hqueue
  queue := .refl _
  gen _ := rfl
  lease j := by
    cases hl : u.leaseAt j with
    | none => exact .free hl hl
    | some a => exact .stands hl hl
  line _ := State.lineMoved_self

/-- A line goes on as it was, or a waiter is granted it. -/
theorem State.leftLine_step {u t t' : State} {m : Fin 16} {x : Line} (h : u.leftLine t m x = true)
    (hstep : t'.line m = t.line m
      ∨ (t.line m).isFree = true ∧ ∃ w, u.waitingAt w = true ∧ t'.line m = (t.line m).bind w) :
    u.leftLine t' m x = true := by
  rw [State.leftLine_iff] at h ⊢
  obtain hsame | ⟨hfree, w, hw, hbind⟩ := hstep
  · rwa [hsame]
  · obtain hx | ⟨-, v, -, hv⟩ := h
    · rw [hx] at hfree hbind
      exact .inr ⟨hfree, w, hw, hbind⟩
    · rw [hv] at hfree
      cases hfree

theorem State.lineMoved_step {u t t' : State} {m : Fin 16} (h : u.lineMoved t m = true)
    (hpreempted : ∀ j, u.preemptedIn t j = true → u.preemptedIn t' j = true)
    (hstep : t'.line m = t.line m
      ∨ (t.line m).isFree = true ∧ ∃ w, u.waitingAt w = true ∧ t'.line m = (t.line m).bind w) :
    u.lineMoved t' m = true := by
  cases hb : (u.line m).boundSlot with
  | none =>
    rw [State.lineMoved_of_unbound hb] at h ⊢
    exact State.leftLine_step h hstep
  | some j =>
    rw [State.lineMoved_of_bound hb] at h ⊢
    obtain hstands | ⟨hended, hleft⟩ := h
    · obtain hsame | ⟨hfree, -⟩ := hstep
      · exact .inl (hsame.trans hstands)
      · rw [hstands] at hfree
        cases hb.symm.trans (Line.boundSlot_of_isFree hfree)
    · exact .inr ⟨hpreempted j hended, State.leftLine_step hleft hstep⟩

/-- R11: a lease that ended within the event stands so. -/
theorem State.preemptedIn_kept {u t t' : State} {j : Fin 16} (h : u.preemptedIn t j = true)
    (hkept : ∀ {b : Lease}, b.isEnded = true → t.leaseAt j = some b → t'.leaseAt j = some b) :
    u.preemptedIn t' j = true := by
  obtain ⟨a, b, hu, ht, hlive, hcause⟩ := State.preemptedIn_iff.1 h
  exact State.preemptedIn_iff.2 ⟨a, b, hu, hkept (Lease.isEnded_of_cause hcause) ht, hlive, hcause⟩

/-! ### A round's starts and pre-emptions -/

section Close

variable {u t : State} {j : Fin 16}

theorem State.not_mem_endingYields_of_leaseAt {b : Lease} (ht : t.leaseAt j = some b) (hb : ∀ g, b.phase ≠ .active g) :
    j ∉ t.endingYields := fun h => by
  obtain ⟨l, g, hl, hp⟩ := State.activeAt_iff.1 (State.mem_endingYields.1 h).1
  cases ht.symm.trans hl
  exact hb g hp

theorem State.zeroWindow_of_leaseAt {b : Lease} (ht : t.leaseAt j = some b) :
    t.zeroWindow j = true ↔ (t.port b.holder).window = 0 := by
  simp [State.zeroWindow, ht]

theorem Lease.startYield_of_not_active {b : Lease} (hb : ∀ g, b.phase ≠ .active g) (d : Word) : b.startYield d = b := by
  cases hp : b.phase with
  | active g => exact absurd hp (hb g)
  | waiting | yielding | ended => simp [Lease.startYield, hp]

theorem Lease.phase_startYield {a : Lease} {g : Holding} (hp : a.phase = .active g) (d : Word) :
    (a.startYield d).phase = .yielding g d := by
  simp [Lease.startYield, hp]

theorem Lease.startYield_not_active {a : Lease} {g : Holding} (hp : a.phase = .active g) (d : Word) (g' : Holding) :
    (a.startYield d).phase ≠ .active g' := by
  rw [Lease.phase_startYield hp]
  exact nofun

theorem Lease.finish_startYield {a : Lease} {g : Holding} (hp : a.phase = .active g) (d : Word) (c : Cause) :
    (a.startYield d).finish c = a.finish c := by
  simp [Lease.startYield, Lease.finish, hp]

/-- A lease that the round does not end starts its yield where it is called on. -/
theorem State.leaseAt_closeRound_of_kept {b : Lease} (ht : t.leaseAt j = some b) (hend : j ∉ t.endingYields) :
    t.closeRound.leaseAt j =
      some (if t.calledOn j then b.startYield (t.ahead (t.port b.holder).window) else b) := by
  rw [State.leaseAt_closeRound, ht, Option.map_some, if_neg hend]

/-- A lease that stood until now. -/
theorem LeaseSettling.closeRound_of_stands (honly : OnlyTable u t) {a : Lease} (hu : u.leaseAt j = some a)
    (ht : t.leaseAt j = some a) : LeaseSettling u t.closeRound j := by
  have hwindow : t.zeroWindow j = true ↔ (u.port a.holder).window = 0 := by
    rw [State.zeroWindow_of_leaseAt ht, honly.port]
  have hahead : t.ahead (t.port a.holder).window = u.ahead (u.port a.holder).window := by
    rw [State.ahead, State.ahead, honly.clock, honly.port]
  by_cases hend : j ∈ t.endingYields
  · obtain ⟨hactive, -, hzero⟩ := State.mem_endingYields.1 hend
    obtain ⟨l, g, hl, hp⟩ := State.activeAt_iff.1 hactive
    cases ht.symm.trans hl
    exact .ended hu hp (hwindow.1 hzero)
      (by rw [State.leaseAt_closeRound, ht, Option.map_some, if_pos hend, Lease.finish_startYield hp])
  have hlease := State.leaseAt_closeRound_of_kept ht hend
  rw [hahead] at hlease
  cases hcalled : t.calledOn j with
  | false =>
    rw [hcalled] at hlease
    exact .stands hu hlease
  | true =>
    rw [hcalled, if_pos rfl] at hlease
    by_cases hactive : ∃ g, a.phase = .active g
    · obtain ⟨g, hp⟩ := hactive
      have hlong : (u.port a.holder).window ≠ 0 := fun h =>
        hend (State.mem_endingYields.2 ⟨State.activeAt_iff.2 ⟨a, g, ht, hp⟩, hcalled, hwindow.2 h⟩)
      exact .started hu hp hlong hlease (State.calledOn_closeRound hend hcalled)
    · rw [Lease.startYield_of_not_active fun g hp => hactive ⟨g, hp⟩] at hlease
      exact .stands hu hlease

theorem LeaseSettling.closeRound (honly : OnlyTable u t) (hbind : BindingLaw t) (h : LeaseSettling u t j) :
    LeaseSettling u t.closeRound j := by
  cases h with
  | free hu ht => exact .free hu (free_keptByRounds.closeRound ht)
  | stands hu ht => exact .closeRound_of_stands honly hu ht
  | granted hu hw ht hcalm =>
    have hcalled := hcalm.calledOn hbind
    have hend : j ∉ t.endingYields := fun hend => by cases hcalled.symm.trans (State.mem_endingYields.1 hend).2.1
    have hlease := State.leaseAt_closeRound_of_kept ht hend
    rw [hcalled] at hlease
    refine .granted hu hw hlease (hcalm.mono (sameTerms_closeRound t) fun v hv => ?_)
    rw [State.queue_closeRound] at hv
    exact (List.mem_filter.1 hv).1
  | @started a g hu hp hwindow ht hcalled =>
    have hyields := Lease.startYield_not_active hp (u.ahead (u.port a.holder).window)
    have hend := State.not_mem_endingYields_of_leaseAt ht hyields
    have hlease := State.leaseAt_closeRound_of_kept ht hend
    rw [hcalled, if_pos rfl, Lease.startYield_of_not_active hyields] at hlease
    exact .started hu hp hwindow hlease (State.calledOn_closeRound hend hcalled)
  | ended hu hp hwindow ht =>
    exact .ended hu hp hwindow ((ended_keptByRounds (Lease.isEnded_finish _ _)).closeRound ht)

/-- R76: what a round ends has stood ACTIVE until then. -/
theorem LeaseSettling.of_mem_endingYields (hbind : BindingLaw t) (h : LeaseSettling u t j) (hend : j ∈ t.endingYields) :
    ∃ a g, u.leaseAt j = some a ∧ t.leaseAt j = some a ∧ a.phase = .active g := by
  obtain ⟨hactive, hcalled, -⟩ := State.mem_endingYields.1 hend
  obtain ⟨l, g, hl, hp⟩ := State.activeAt_iff.1 hactive
  cases h with
  | free _ ht => cases ht.symm.trans hl
  | stands hu ht =>
    cases ht.symm.trans hl
    exact ⟨l, g, hu, hl, hp⟩
  | granted _ _ _ hcalm => cases (hcalm.calledOn hbind).symm.trans hcalled
  | started _ hp' _ ht =>
    cases ht.symm.trans hl
    exact absurd hp (Lease.startYield_not_active hp' _ g)
  | ended _ hp' _ ht =>
    cases ht.symm.trans hl
    rw [Lease.finish, hp'] at hp
    cases hp

/-- R68: a former waiter is not ended by a round. -/
theorem LeaseSettling.not_mem_endingYields (hbind : BindingLaw t) (h : LeaseSettling u t j)
    (hw : u.waitingAt j = true) : j ∉ t.endingYields := fun hend => by
  obtain ⟨a, g, hu, -, hp⟩ := h.of_mem_endingYields hbind hend
  obtain ⟨l, hl, hwait⟩ := State.waitingAt_iff.1 hw
  cases hu.symm.trans hl
  rw [Lease.isWaiting, hp] at hwait
  cases hwait

theorem LeaseSettling.preemptedIn (hbind : BindingLaw t) (h : LeaseSettling u t j) (hend : j ∈ t.endingYields) :
    u.preemptedIn t.closeRound j = true := by
  obtain ⟨a, g, hu, ht, hp⟩ := h.of_mem_endingYields hbind hend
  refine State.preemptedIn_iff.2 ⟨a, a.finish .preempted, hu, ?_, ?_, ?_⟩
  · rw [State.leaseAt_closeRound, ht, Option.map_some, if_pos hend, Lease.finish_startYield hp]
  · rw [Lease.live, Lease.isEnded, hp]
    rfl
  · rw [Lease.finish, hp]
    rfl

/-- What a round's pre-emptions make of a line. -/
theorem Settling.line_closeRound (h : Settling u t) (m : Fin 16) : u.lineMoved t.closeRound m = true := by
  have hkept : ∀ i, u.preemptedIn t i = true → u.preemptedIn t.closeRound i = true := fun i hi =>
    State.preemptedIn_kept hi fun he ht => (ended_keptByRounds he).closeRound ht
  have hline := t.line_closeRound m
  by_cases hunbound : ∃ i ∈ t.endingYields, (t.line m).boundSlot = some i
  · obtain ⟨i, hend, hbound⟩ := hunbound
    rw [hbound] at hline
    simp only [hend, if_true] at hline
    have hu : (u.line m).boundSlot = some i ∧ t.line m = u.line m := by
      have hmoved := h.line m
      have hleft : ∀ x : Line, x.boundSlot = none → u.leftLine t m x = true → False := fun x hx hleft => by
        obtain hsame | ⟨-, w, hw, hbind⟩ := State.leftLine_iff.1 hleft
        · cases hx.symm.trans (hsame ▸ hbound)
        · rw [hbind] at hbound
          cases hbound
          exact (h.lease i).not_mem_endingYields h.binding hw hend
      cases hb : (u.line m).boundSlot with
      | none =>
        rw [State.lineMoved_of_unbound hb] at hmoved
        exact (hleft _ hb hmoved).elim
      | some k =>
        obtain hstands | ⟨-, hfault⟩ := (State.lineMoved_of_bound hb).1 hmoved
        · rw [hstands, hb] at hbound
          exact ⟨hbound, hstands⟩
        · exact (hleft _ (Line.boundSlot_toFault _ _) hfault).elim
    obtain ⟨hb, hsame⟩ := hu
    refine (State.lineMoved_of_bound hb).2 (.inr ⟨(h.lease i).preemptedIn h.binding hend, State.leftLine_iff.2 (.inl ?_)⟩)
    rw [hline, hsame, h.only.clock]
  · refine State.lineMoved_step (h.line m) hkept (.inl ?_)
    rw [hline]
    split
    · rename_i i hi
      rw [if_neg fun hend => hunbound ⟨i, hend, hi⟩]
    · rfl

theorem Settling.closeRound (h : Settling u t) : Settling u t.closeRound where
  only := (onlyTable_keptByRounds u).closeRound h.only
  binding := bindingLaw_keptByRounds.closeRound h.binding
  waiters := queueLaw_keptByRounds.closeRound h.waiters
  queue := by
    rw [State.queue_closeRound]
    exact List.filter_sublist.trans h.queue
  gen j := gen_keptByRounds.closeRound (h.gen j)
  lease j := (h.lease j).closeRound h.only h.binding
  line := h.line_closeRound

end Close

/-! ### A round's scan -/

section Scan

variable {u t : State} {j : Fin 16}

theorem LeaseSettling.grantScan (honly : OnlyTable u t) (hqueue : QueueLaw t) (h : LeaseSettling u t j) :
    LeaseSettling u t.grantScan j := by
  have hscan := scanned_grantScan hqueue
  have hcalm : t.unthreatened j → t.grantScan.unthreatened j := fun hcalm =>
    hcalm.mono ((sameTerms_keptByRounds t).grantScan (.refl t)) fun v hv => by
      rw [hscan.queue] at hv
      exact (List.mem_filter.1 hv).1
  have hlease := hscan.leaseAt j
  have hpassed : ∀ {b : Lease}, t.leaseAt j = some b → b.isWaiting = false → t.grantScan.leaseAt j = some b :=
    fun {b} ht hb => by
      rw [hlease, if_neg, ht]
      rintro ⟨hmem, -⟩
      obtain ⟨l, hl, hw⟩ := State.waitingAt_iff.1 ((hqueue.2.1 j).1 hmem)
      cases ht.symm.trans hl
      cases hb.symm.trans hw
  cases h with
  | free hu ht => exact .free hu (free_keptByRounds.grantScan ht)
  | stands hu ht =>
    by_cases hgrant : j ∈ t.queue ∧ t.grantable j = true
    · obtain ⟨l, hl, hw⟩ := State.waitingAt_iff.1 ((hqueue.2.1 j).1 hgrant.1)
      cases ht.symm.trans hl
      rw [if_pos hgrant, ht, Option.map_some, honly.clock, honly.port] at hlease
      exact .granted hu hw hlease (State.unthreatened_of_granted hqueue hgrant.2)
    · rw [if_neg hgrant, ht] at hlease
      exact .stands hu hlease
  | granted hu hw ht hcalm' => exact .granted hu hw (hpassed ht rfl) (hcalm hcalm')
  | started hu hp hwindow ht hcalled =>
    refine .started hu hp hwindow (hpassed ht ?_) (State.calledOn_grantScan hqueue hcalled)
    rw [Lease.isWaiting, Lease.phase_startYield hp]
  | ended hu hp hwindow ht =>
    exact .ended hu hp hwindow ((ended_keptByRounds (Lease.isEnded_finish _ _)).grantScan ht)

/-- A waiter of a later round waited when the event began to settle. -/
theorem LeaseSettling.waitingAt (h : LeaseSettling u t j) (hw : t.waitingAt j = true) : u.waitingAt j = true := by
  obtain ⟨l, hl, hwait⟩ := State.waitingAt_iff.1 hw
  cases h with
  | free _ ht => cases ht.symm.trans hl
  | stands hu ht =>
    cases ht.symm.trans hl
    exact State.waitingAt_iff.2 ⟨_, hu, hwait⟩
  | granted hu hw' => exact State.waitingAt_iff.2 ⟨_, hu, hw'⟩
  | started _ hp _ ht =>
    cases ht.symm.trans hl
    rw [Lease.isWaiting, Lease.phase_startYield hp] at hwait
    cases hwait
  | ended _ hp _ ht =>
    cases ht.symm.trans hl
    rw [Lease.isWaiting, Lease.finish, hp] at hwait
    cases hwait

theorem Settling.line_grantScan (h : Settling u t) (m : Fin 16) : u.lineMoved t.grantScan m = true := by
  have hscan := scanned_grantScan h.waiters
  refine State.lineMoved_step (h.line m)
    (fun i hi => State.preemptedIn_kept hi fun he ht => (ended_keptByRounds he).grantScan ht) ?_
  by_cases hgranted : ∃ j ∈ t.queue, t.grantable j = true ∧ (t.linesAt j).getLsbD m.val = true
  · obtain ⟨j, hj, hgrant, hm⟩ := hgranted
    obtain ⟨hwait, -, hfree⟩ := State.grantable_iff.1 hgrant
    exact .inr ⟨State.isFree_of_allFree hfree hm, j, (h.lease j).waitingAt hwait, hscan.bound j m hj hgrant hm⟩
  · refine .inl (hscan.stands m fun j hj hgrant => ?_)
    rw [Bool.eq_false_iff]
    exact fun hm => hgranted ⟨j, hj, hgrant, hm⟩

theorem Settling.grantScan (h : Settling u t) : Settling u t.grantScan where
  only := (onlyTable_keptByRounds u).grantScan h.only
  binding := bindingLaw_keptByRounds.grantScan h.binding
  waiters := queueLaw_keptByRounds.grantScan h.waiters
  queue := by
    rw [(scanned_grantScan h.waiters).queue]
    exact List.filter_sublist.trans h.queue
  gen j := gen_keptByRounds.grantScan (h.gen j)
  lease j := (h.lease j).grantScan h.only h.waiters
  line := h.line_grantScan

end Scan

/-! ### The last round -/

section Last

variable {u t : State}

/-- R68, R72: what the last round leaves of a slot. -/
theorem Settling.slotMoved_lastRound (h : Settling u t) (hlast : t.endingYields = []) (j : Fin 16) :
    u.slotMoved t.lastRound j = true := by
  have hgen : (t.lastRound.slot j).gen = (u.slot j).gen := gen_keptByRounds.lastRound (h.gen j)
  have hlease := t.leaseAt_lastRound j
  have hahead : ∀ p, t.ahead (t.port p).window = u.ahead (u.port p).window := fun p => by
    rw [State.ahead, State.ahead, h.only.clock, h.only.port]
  cases h.lease j with
  | free hu ht => exact State.slotMoved_of_free hgen hu (free_keptByRounds.lastRound ht)
  | @stands a hu ht =>
    rw [ht, Option.map_some, hahead] at hlease
    refine State.slotMoved_of_lease hgen hu hlease ?_
    cases hcalled : t.calledOn j with
    | false => exact State.moved_withdraw
    | true =>
      rw [if_pos rfl]
      by_cases hactive : ∃ g, a.phase = .active g
      · obtain ⟨g, hp⟩ := hactive
        refine State.moved_startYield hp fun hwindow => ?_
        have hend : j ∈ t.endingYields := State.mem_endingYields.2 ⟨State.activeAt_iff.2 ⟨a, g, ht, hp⟩, hcalled,
          (State.zeroWindow_of_leaseAt ht).2 (by rw [h.only.port]; exact hwindow)⟩
        rw [hlast] at hend
        cases hend
      · rw [Lease.startYield_of_not_active fun g hp => hactive ⟨g, hp⟩]
        exact State.moved_self
  | granted hu hw ht hcalm =>
    rw [ht, Option.map_some, hcalm.calledOn h.binding] at hlease
    exact State.slotMoved_of_lease hgen hu hlease (State.moved_grant hw)
  | started hu hp hwindow ht hcalled =>
    rw [ht, Option.map_some, hcalled, if_pos rfl,
      Lease.startYield_of_not_active (Lease.startYield_not_active hp _)] at hlease
    exact State.slotMoved_of_lease hgen hu hlease (State.moved_startYield hp hwindow)
  | ended hu hp hwindow ht =>
    exact State.slotMoved_of_lease hgen hu ((ended_keptByRounds (Lease.isEnded_finish _ _)).lastRound ht)
      (State.moved_finish hp hwindow)

theorem Settling.lineMoved_lastRound (h : Settling u t) (m : Fin 16) : u.lineMoved t.lastRound m = true := by
  refine State.lineMoved_step (h.line m)
    (fun i hi => State.preemptedIn_kept hi fun he ht => (ended_keptByRounds he).lastRound ht) (.inl ?_)
  rw [State.lastRound, State.line_withdrawYields, State.line_startYields]

theorem Settling.queue_lastRound (h : Settling u t) : t.lastRound.queue.Sublist u.queue := by
  rw [(sameBoard_lastRound t).queue]
  exact h.queue

end Last

/-- R11, R38, R68: what the settling of an event makes of the table, the queue and the lines. -/
theorem State.settled_frame {u : State} (hbind : BindingLaw u) (hqueue : QueueLaw u) (scan : Bool) :
    (∀ j, u.slotMoved (u.settle scan).1 j = true) ∧ (∀ m, u.lineMoved (u.settle scan).1 m = true)
      ∧ (u.settle scan).1.queue.Sublist u.queue := by
  have hbegins : Settling u (if scan then u.grantScan else u) := by
    cases scan with
    | true => exact (Settling.refl hbind hqueue).grantScan
    | false => exact .refl hbind hqueue
  obtain ⟨t, ht, hlast, hsettled⟩ := State.settle_comes_to_last (P := Settling u)
    (fun t ht _ => ht.closeRound.grantScan) hbegins
  rw [hsettled]
  exact ⟨ht.slotMoved_lastRound hlast, ht.lineMoved_lastRound, ht.queue_lastRound⟩

end Sys2Proof.Machine
end

section
/-! SUPPORT. Events by which leases stop holding and waiting (R12, R13, R38, R68, R92). -/

namespace Sys2Proof.Machine

section Frame

variable {s t u : State} {gone : Fin 16 → Bool} {voluntary : Bool} {j m : Fin 16}

/-! ## What is settled, seen from the state that the event found -/

/-- R70, R76: the statement about a slot reads the slot, the clock, and the ports' margins and windows. -/
theorem State.slotMoved_of_alike (hslot : u.slot j = s.slot j) (halike : SettlesAlike s u) :
    s.slotMoved t j = u.slotMoved t j := by
  obtain ⟨hclock, hports⟩ := halike
  have hmargin : ∀ q, (u.port q).margin = (s.port q).margin := fun q => (hports q).1
  have hwindow : ∀ q, (u.port q).window = (s.port q).window := fun q => (hports q).2
  simp only [State.slotMoved, State.moved, State.ahead, State.leaseAt, hslot, hclock, hmargin, hwindow]

theorem State.slotMoved_of_slot (h : t.slot j = u.slot j) : s.slotMoved t j = s.slotMoved u j := by
  simp only [State.slotMoved, State.leaseAt, h]

theorem State.leftLine_of_line {x : Line} (h : t.line m = u.line m) : s.leftLine t m x = s.leftLine u m x := by
  simp only [State.leftLine, h]

theorem State.lineMoved_of_stands (h : TableStands u t) : s.lineMoved t m = s.lineMoved u m := by
  obtain ⟨hslot, -, hline⟩ := h
  have hpreempted : ∀ i, s.preemptedIn t i = s.preemptedIn u i := fun i => by
    simp only [State.preemptedIn, State.leaseAt, hslot]
  have hleft : ∀ x, s.leftLine t m x = s.leftLine u m x := fun x => State.leftLine_of_line (hline m)
  simp only [State.lineMoved, hpreempted, hleft, hline]

theorem State.leftLine_of_waiters {x : Line} (hwait : ∀ w, u.waitingAt w = true → s.waitingAt w = true)
    (h : u.leftLine t m x = true) : s.leftLine t m x = true :=
  State.leftLine_iff.2 ((State.leftLine_iff.1 h).imp_right fun ⟨hfree, w, hw, hbind⟩ => ⟨hfree, w, hwait w hw, hbind⟩)

/-- A line that the event's own changes leave, bound to a slot that they leave or to none. -/
theorem State.lineMoved_of_alike (hwait : ∀ w, u.waitingAt w = true → s.waitingAt w = true)
    (hclock : u.clock = s.clock) (hline : u.line m = s.line m)
    (hslot : ∀ i, (s.line m).boundSlot = some i → u.leaseAt i = s.leaseAt i) (h : u.lineMoved t m = true) :
    s.lineMoved t m = true := by
  cases hb : (s.line m).boundSlot with
  | none =>
    rw [State.lineMoved_of_unbound (hline ▸ hb), hline] at h
    rw [State.lineMoved_of_unbound hb]
    exact State.leftLine_of_waiters hwait h
  | some i =>
    rw [State.lineMoved_of_bound (hline ▸ hb), hline, hclock] at h
    refine (State.lineMoved_of_bound hb).2 (h.imp_right fun ⟨hended, hleft⟩ => ⟨?_, State.leftLine_of_waiters hwait hleft⟩)
    rwa [State.preemptedIn, hslot i hb] at hended

/-! ## The frame of an event (R11, R36, R38, R68) -/

namespace Leaves

variable (h : Leaves s u gone voluntary)

include h

theorem waitingAt {w : Fin 16} (hw : u.waitingAt w = true) : s.waitingAt w = true := by
  obtain ⟨l, hl, hwait⟩ := State.waitingAt_iff.1 hw
  cases hgone : gone w with
  | true =>
    obtain ⟨-, hnot, -⟩ := h.of_gone hgone hl
    cases hnot.symm.trans hwait
  | false =>
    rw [h.leaseAt_of_kept hgone] at hl
    exact State.waitingAt_iff.2 ⟨l, hl, hwait⟩

/-- R11: what left stays as it left. -/
theorem slot_settle {j : Fin 16} (hgone : gone j = true) (scan : Bool) : (u.settle scan).1.slot j = u.slot j := by
  have hgen : ((u.settle scan).1.slot j).gen = (u.slot j).gen := gen_keptByRounds.settle rfl scan
  have hlease : (u.settle scan).1.leaseAt j = u.leaseAt j := by
    cases hl : u.leaseAt j with
    | none => exact free_keptByRounds.settle hl scan
    | some l => exact (ended_keptByRounds (h.of_gone hgone hl).1).settle hl scan
  exact congrArg₂ Slot.mk hgen hlease

theorem lineAfter (hmoved : ∀ m, u.lineMoved t m = true) (m : Fin 16) : s.lineAfter t gone voluntary m = true := by
  obtain ⟨-, hline, -, hclock, -⟩ := h.vacated
  have hline := hline m
  have hwait : ∀ w, u.waitingAt w = true → s.waitingAt w = true := fun w => h.waitingAt
  rw [State.lineAfter]
  cases hb : (s.line m).boundSlot with
  | none =>
    rw [hb] at hline
    exact State.lineMoved_of_alike hwait hclock hline (fun i hi => by cases hb.symm.trans hi) (hmoved m)
  | some i =>
    rw [hb] at hline
    dsimp only at hline ⊢
    cases hgone : gone i with
    | false =>
      rw [hgone, if_neg Bool.false_ne_true] at hline
      rw [if_neg Bool.false_ne_true]
      refine State.lineMoved_of_alike hwait hclock hline (fun k hk => ?_) (hmoved m)
      cases hb.symm.trans hk
      exact h.leaseAt_of_kept hgone
    | true =>
      rw [hgone, if_pos rfl] at hline
      rw [if_pos rfl, ← hline]
      refine State.leftLine_of_waiters hwait ?_
      rw [← State.lineMoved_of_unbound]
      · exact hmoved m
      · rw [hline]
        split
        · rfl
        · exact Line.boundSlot_toFault _ _

/-- R11, R36, R38, R68: what an event leaves by which leases stop holding and waiting, and how it leaves them. -/
theorem eventFrame (hbind : BindingLaw s) (hqueue : QueueLaw s) {scan : Bool} (hscan : allSlots.any gone = scan)
    (ht : TableStands (u.settle scan).1 t) :
    (∀ j, gone j = true → t.slot j = u.slot j) ∧ EventFrame s t gone voluntary := by
  obtain ⟨hmoved, hlines, hsublist⟩ := State.settled_frame (h.bindingLaw hbind) (h.queueLaw hqueue) scan
  have hgone : ∀ j, gone j = true → t.slot j = u.slot j := fun j hj => (ht.1 j).trans (h.slot_settle hj scan)
  obtain ⟨hslot, hline, hfilter, halike⟩ := h.vacated
  refine ⟨hgone, fun j hj => ?_, h.lineAfter fun m => ?_, ?_, u, ⟨fun j => ?_, hline, hfilter, halike⟩, ?_⟩
  · rw [State.slotMoved_of_alike (h.slot_of_kept hj) halike, State.slotMoved_of_slot (ht.1 j)]
    exact hmoved j
  · rw [State.lineMoved_of_stands ht]
    exact hlines m
  · rw [ht.2.1, ← hfilter]
    exact hsublist
  · cases hj : gone j with
    | true => exact (hgone j hj).symm
    | false => exact h.slot_of_kept hj
  · rw [hscan]
    exact ht

end Leaves

theorem any_allSlots_eq (i : Fin 16) : (allSlots.any fun j => j == i) = true :=
  List.any_eq_true.2 ⟨i, mem_allSlots i, beq_self_eq_true i⟩

/-- R12, R13, R152: a request by which the lease of slot `i` stops holding and waiting. -/
theorem exec_of_leaves {i : Fin 16} (h : Leaves s u (fun j => j == i) voluntary) (honly : OnlyTable s u)
    (hbind : BindingLaw s) (hqueue : QueueLaw s) {p : Port} {r : Request} {a : Answer}
    (hn : s.nextRequest = some (p, r)) (htaken : s.taken p r = s.conclude p r.command true u fun _ => a) :
    ∃ t, exec r.instr s = .next t ∧ t.slot i = u.slot i ∧ EventFrame s t (fun j => j == i) voluntary ∧ Aside s t
      ∧ PortsSteady s t ∧ Answered s t p r.command a.status a.data := by
  obtain ⟨t, hexec, htable, haside, hsteady, hanswered⟩ := honly.exec_of_conclude hn htaken
  obtain ⟨hgone, hframe⟩ := h.eventFrame hbind hqueue (any_allSlots_eq i) htable
  exact ⟨t, hexec, hgone i (beq_self_eq_true i), hframe, haside, hsteady, hanswered⟩

end Frame

/-! ## RELEASE, CANCEL and REVOKE (R44, R58, R61) -/

section Requests

variable {s : State} {p : Port} {h : Handle} {i : Fin 16} {l : Lease}

theorem State.taken_release_of_holding (hcheck : s.checkHandle (some p) h = .current i l) (hl : l.holding ≠ none) :
    s.taken p (.release h) = s.conclude p .release true (s.freeSlot i) fun _ => { status := .ok } := by
  change s.takeRelease p h = _
  rw [State.takeRelease, hcheck]
  cases hp : l.phase with
  | active | yielding => simp only [hp]
  | waiting | ended => simp [Lease.holding, hp] at hl

theorem State.taken_cancel_of_waiting (hcheck : s.checkHandle (some p) h = .current i l) (hl : l.isWaiting = true) :
    s.taken p (.cancel h) = s.conclude p .cancel true (s.freeSlot i) fun _ => { status := .ok } := by
  change s.takeCancel p h = _
  rw [State.takeCancel, hcheck]
  exact if_pos hl

theorem State.taken_revoke_of_live (hcheck : s.checkHandle none h = .current i l) (hl : l.isEnded = false) :
    s.taken p (.revoke h) = s.conclude p .revoke true (s.endLease i .revoked) fun _ =>
      { status := .ok, data := [portByte l.holder, l.state.toByte] } := by
  change s.takeRevoke p h = _
  rw [State.takeRevoke, hcheck]
  exact if_neg (by rw [hl]; exact Bool.false_ne_true)

theorem State.slot_freeSlot_of_leaseAt (hl : s.leaseAt i = some l) :
    (s.freeSlot i).slot i = { gen := (s.slot i).gen + 1, lease := none } := by
  have hlease : (s.slot i).lease ≠ none := fun hnone => by cases hl.symm.trans hnone
  rw [State.slot_freeSlot, if_pos rfl, Slot.toFree_eq, if_neg hlease]

/-- R13: the record of a lease that ends. -/
theorem Lease.finish_of_live (hl : l.isEnded = false) (c : Cause) :
    l.finish c = { l with phase := .ended (l.count.getD 0) c, flags := { ended := true } } :=
  Lease.Became.finish_eq ⟨rfl, rfl⟩ hl c

theorem State.slot_endLease_of_live (hl : s.leaseAt i = some l) (hlive : l.isEnded = false) (c : Cause) :
    (s.endLease i c).slot i =
      { s.slot i with
        lease := some { l with phase := .ended (l.count.getD 0) c, flags := { ended := true } } } := by
  have hgen : ((s.endLease i c).slot i).gen = (s.slot i).gen := by
    rw [State.endLease, State.gen_updLease]
    rfl
  have hlease : (s.endLease i c).leaseAt i = some (l.finish c) := by
    rw [State.leaseAt_endLease, if_pos rfl, hl]
    rfl
  rw [Lease.finish_of_live hlive] at hlease
  exact congrArg₂ Slot.mk hgen hlease

end Requests

/-! ## The deadline events (R42, R59, R75, R92) -/

section Deadlines

variable {s : State} {i : Fin 16} {l : Lease}

/-- R155: an event that ends the lease of slot `i`. -/
theorem exec_of_endLease {c : Instr} {cause : Cause} (hexec : exec c s = .next (s.engineEvent true (s.endLease i cause)))
    (hl : s.leaseAt i = some l) (hlive : l.isEnded = false) (hbind : BindingLaw s) (hqueue : QueueLaw s) :
    ∃ t, exec c s = .next t
      ∧ t.slot i =
          { s.slot i with lease := some { l with phase := .ended (l.count.getD 0) cause, flags := { ended := true } } }
      ∧ EventFrame s t (fun j => j == i) false ∧ Aside s t ∧ PortsSteady s t ∧ Unanswered s t := by
  obtain ⟨htable, haside, hsteady, hunanswered⟩ := (onlyTable_endLease s i cause).reads_of_engineEvent true
  obtain ⟨hgone, hframe⟩ := (leaves_endLease s i cause).eventFrame hbind hqueue (any_allSlots_eq i) htable
  exact ⟨_, hexec, (hgone i (beq_self_eq_true i)).trans (State.slot_endLease_of_live hl hlive cause), hframe, haside,
    hsteady, hunanswered⟩

/-- R155: an event of slot `i` that is due is taken. -/
theorem dueEvent_taken {n : Nat} {i : Fin n} {due : Fin n → Bool} {u : Fin n → State} (hr : s.inReset = false)
    (hdue : due i = true) :
    (if h : i.val < n then
      if !s.inReset && due ⟨i.val, h⟩ then Host.Outcome.next (s.engineEvent true (u ⟨i.val, h⟩)) else .next s
    else (.next s : Host.Outcome State Fault Refusal)) = .next (s.engineEvent true (u i)) := by
  rw [dif_pos i.isLt, hr]
  exact if_pos hdue

theorem exec_expiry_of_due (hr : s.inReset = false) (hdue : s.expiryDue i = true) :
    exec (.expiry i.val) s = .next (s.engineEvent true (s.endLease i .expired)) :=
  dueEvent_taken (due := s.expiryDue) (u := fun i => s.endLease i .expired) hr hdue

theorem exec_yieldDeadline_of_due (hr : s.inReset = false) (hdue : s.yieldDue i = true) :
    exec (.yieldDeadline i.val) s = .next (s.engineEvent true (s.endLease i .preempted)) :=
  dueEvent_taken (due := s.yieldDue) (u := fun i => s.endLease i .preempted) hr hdue

theorem exec_waitDeadline_of_due (hr : s.inReset = false) (hdue : s.waitDue i = true) :
    exec (.waitDeadline i.val) s = .next (s.engineEvent true (s.endLease i .waitExpired)) :=
  dueEvent_taken (due := s.waitDue) (u := fun i => s.endLease i .waitExpired) hr hdue

/-- R92: the lines with the quarantine of line `m` at its end. -/
def State.rested (s : State) (m : Fin 16) : State := s.mapLines fun l x => if l = m then x.toRest else x

theorem State.line_rested (m k : Fin 16) : (s.rested m).line k = if k = m then (s.line m).toRest else s.line k := by
  rw [State.rested, State.line_mapLines]
  split
  · rename_i h
    rw [h]
  · rfl

theorem exec_quarantineDeadline_of_due {m : Fin 16} (hr : s.inReset = false) (hdue : s.quarantineDue m = true) :
    exec (.quarantineDeadline m.val) s = .next (s.engineEvent true (s.rested m)) :=
  dueEvent_taken (due := s.quarantineDue) (u := s.rested) hr hdue

end Deadlines

end Sys2Proof.Machine

open Sys2Proof Sys2Proof.Machine

/-- Settles O37: a RELEASE and a CANCEL free the slot, and its lease leaves. -/
theorem releaseAndCancelFreeSlot : Obligations.ReleaseAndCancelFreeSlot := by
  intro s p r h i l hn hc hp hcase hbind hqueue
  obtain ⟨-, hcheck⟩ := s.checkHandle_of_current hc
  obtain ⟨-, hl, -⟩ := hc
  rw [hp] at hcheck
  have htaken : s.taken p r = s.conclude p r.command true (s.freeSlot i) fun _ => { status := .ok } := by
    obtain ⟨rfl, hholds⟩ | ⟨rfl, hwaits⟩ := hcase
    · exact State.taken_release_of_holding hcheck hholds
    · exact State.taken_cancel_of_waiting hcheck hwaits
  obtain ⟨t, hexec, hslot, hrest⟩ :=
    exec_of_leaves (leaves_freeSlot s i) (onlyTable_freeSlot s i) hbind hqueue hn htaken
  exact ⟨t, hexec, hslot.trans (State.slot_freeSlot_of_leaseAt hl), hrest⟩

/-- Settles O39: a REVOKE ends the lease, which leaves. -/
theorem revokeEndsAnyLease : Obligations.RevokeEndsAnyLease := by
  intro s p h i l hn hc hlive hbind hqueue
  obtain ⟨hcheck, -⟩ := s.checkHandle_of_current hc
  obtain ⟨-, hl, -⟩ := hc
  obtain ⟨t, hexec, hslot, hrest⟩ := exec_of_leaves (leaves_endLease s i .revoked) (onlyTable_endLease s i .revoked)
    hbind hqueue hn (State.taken_revoke_of_live hcheck hlive)
  exact ⟨t, hexec, hslot.trans (State.slot_endLease_of_live hl hlive _), hrest⟩

/-- Settles O40: each deadline event ends the lease, which leaves. -/
theorem deadlinesEndLeases : Obligations.DeadlinesEndLeases := by
  intro s i l hr hl hbind hqueue
  refine ⟨fun g hg hexpiry => ?_, fun g hp => ?_, fun hp => ?_⟩
  · have hdue : s.expiryDue i = true := by simp [State.expiryDue, hl, hg, hexpiry]
    have hlive : l.isEnded = false := by
      cases hp : l.phase <;> simp_all [Lease.isEnded, Lease.holding]
    exact exec_of_endLease (exec_expiry_of_due hr hdue) hl hlive hbind hqueue
  · have hdue : s.yieldDue i = true := by simp [State.yieldDue, hl, Lease.yieldDeadline, hp]
    exact exec_of_endLease (exec_yieldDeadline_of_due hr hdue) hl (by rw [Lease.isEnded, hp]) hbind hqueue
  · have hdue : s.waitDue i = true := by simp [State.waitDue, hl, Lease.waitDeadline, hp]
    exact exec_of_endLease (exec_waitDeadline_of_due hr hdue) hl (by rw [Lease.isEnded, hp]) hbind hqueue

/-- Settles O42: the line goes to rest, and what is settled of that is seen from the state before. -/
theorem quarantineEndsAtDeadline : Obligations.QuarantineEndsAtDeadline := by
  intro s m hr hocc hbind hqueue
  have hdue : s.quarantineDue m = true := by simp [State.quarantineDue, hocc]
  have honly : OnlyTable s (s.rested m) := onlyTable_mapLines s _
  obtain ⟨hmoved, hlines, hsublist⟩ := State.settled_frame (u := s.rested m)
    (bindingLaw_moves (.rest (asker := none) hdue) hbind) (queueLaw_moves (.rest (asker := none) hdue) hqueue) true
  obtain ⟨htable, haside, hsteady, hunanswered⟩ := honly.reads_of_engineEvent true
  have hslots : ∀ j, (s.rested m).slot j = s.slot j := s.slot_mapLines _
  have hqueues : (s.rested m).queue = s.queue := s.queue_mapLines _
  have hwait : ∀ w, (s.rested m).waitingAt w = true → s.waitingAt w = true := fun w hw => by
    rwa [State.waitingAt, State.leaseAt, hslots, ← State.leaseAt] at hw
  have halike : SettlesAlike s (s.rested m) := settlesAlike_of_onlyTable honly
  refine ⟨_, exec_quarantineDeadline_of_due hr hdue, ?_, fun k hk => ?_, fun j => ?_, ?_,
    ⟨s.rested m, ⟨hslots, State.line_rested m, hqueues, halike⟩, htable⟩, haside, hsteady, hunanswered⟩
  · have hline : (s.rested m).line m = (s.line m).toRest := by rw [State.line_rested, if_pos rfl]
    have hleft := hlines m
    rw [State.lineMoved_of_unbound (by rw [hline]; rfl), hline] at hleft
    rw [State.leftLine_of_line (htable.2.2 m)]
    exact State.leftLine_of_waiters hwait hleft
  · rw [State.lineMoved_of_stands htable]
    exact State.lineMoved_of_alike hwait honly.clock (by rw [State.line_rested, if_neg hk])
      (fun i _ => congrArg Slot.lease (hslots i)) (hlines k)
  · rw [State.slotMoved_of_alike (hslots j) halike, State.slotMoved_of_slot (htable.1 j)]
    exact hmoved j
  · rw [htable.2.1, ← hqueues]
    exact hsublist

end

section
/-! SUPPORT. The detach of a port (R168, R170, R171). -/

namespace Sys2Proof.Machine

section Detach

variable {s : State} {x : Port} {f : PortState → PortState}

/-- R170, R171: the port `x`, changed by `f`, detached. -/
def State.detached (s : State) (x : Port) (f : PortState → PortState) : State := (s.updPort x f).detachPort x

theorem State.port_detached (q : Port) :
    (s.detached x f).port q = if q = x then (f (s.port x)).silence else s.port q := by
  rw [State.detached, State.port_detachPort, State.port_updPort]
  split
  · rename_i h
    rw [h]
  · rfl

theorem State.aside_detached : Aside s (s.detached x f) :=
  aside_trans (aside_trans (s.aside_updPort x f) (onlyTable_dropLeases _ x).aside) (State.aside_updPort _ x _)

theorem State.pointer_detached : (s.detached x f).pointer = s.pointer :=
  (State.pointer_updPort _ x _).trans ((onlyTable_dropLeases _ x).pointer.trans (State.pointer_updPort s x f))

/-- R168: what an item that takes the attachment away makes. -/
theorem State.changeAttach_of_attached (h : s.attached x = true) (hf : (s.updPort x f).attached x = false) :
    s.changeAttach x f = (s.detached x f, s.holdsSlots x) := by
  rw [State.changeAttach]
  simp only [h, hf]
  rfl

theorem State.slot_detached_of_held {i : Fin 16} {l : Lease} (hl : s.leaseAt i = some l) (hx : l.holder = x) :
    (s.slot i).heldBy x = true ∧ (s.detached x f).slot i = { gen := (s.slot i).gen + 1, lease := none } := by
  have hheld : (s.slot i).heldBy x = true := by
    have hlease : (s.slot i).lease = some l := hl
    rw [Slot.heldBy, hlease]
    simpa using hx
  have hsome : (s.slot i).lease ≠ none := fun hnone => by cases hl.symm.trans hnone
  refine ⟨hheld, ?_⟩
  have hslot : (s.detached x f).slot i = (s.slot i).toFree := by
    rw [State.detached, State.slot_detachPort, State.slot_updPort, if_pos hheld]
  rw [hslot, Slot.toFree_eq, if_neg hsome]

/-- R141: ATTN_x of a detached port. -/
theorem State.port_attend_of_detached {u : State} {q : Port} (acked : Option Port) (h : u.attached q = false) :
    (s.attend acked u).port q = { u.port q with attn := false } := by
  have hgap : s.startsGap u acked q = false := by rw [State.startsGap, h]; rfl
  rw [State.port_attend, hgap, h]
  rfl

/-- What O47 says of the table, the lines and the other ports. -/
def DetachFrame (s t : State) (x : Port) : Prop :=
  (∀ i : Fin 16, ∀ l ∈ s.leaseAt i, l.holder = x → t.slot i = { gen := (s.slot i).gen + 1, lease := none })
    ∧ EventFrame s t (fun j => (s.slot j).heldBy x) false ∧ Aside s t
    ∧ ∀ q : Port, q ≠ x → (s.port q).steady (t.port q) = true

/-- R170, R171: what is settled of a detach leaves the frame. -/
theorem detachFrame_of_reads {t : State} (hf : ∀ y, (f y).margin = y.margin ∧ (f y).window = y.window)
    (hbind : BindingLaw s) (hqueue : QueueLaw s)
    (htable : TableStands ((s.detached x f).settle (s.holdsSlots x)).1 t) (haside : Aside (s.detached x f) t)
    (hsteady : PortsSteady (s.detached x f) t) : DetachFrame s t x := by
  have hleaves : Leaves s (s.detached x f) (fun j => (s.slot j).heldBy x) false := leaves_detachPort s hf
  obtain ⟨hgone, hframe⟩ := hleaves.eventFrame hbind hqueue rfl htable
  refine ⟨fun i l hl hx => ?_, hframe, aside_trans State.aside_detached haside, fun q hq => ?_⟩
  · obtain ⟨hheld, hslot⟩ := State.slot_detached_of_held (f := f) hl hx
    exact (hgone i hheld).trans hslot
  · have hport := State.port_detached (s := s) (x := x) (f := f) q
    rw [if_neg hq] at hport
    rw [← hport]
    exact hsteady q

/-- R141, R171: the detached port itself, after the event. -/
theorem State.port_settled_of_detached (acked : Option Port) (scan : Bool)
    (hdetached : (s.detached x f).attached x = false) :
    (s.attend acked ((s.detached x f).settle scan).1).port x = { (f (s.port x)).silence with attn := false } := by
  rw [State.port_attend_of_detached acked ((State.attached_settle _ scan x).trans hdetached), State.port_settle,
    State.port_detached, if_pos rfl]

theorem State.attached_detached (x : Port) : (s.detached x f).attached x = (s.updPort x f).attached x :=
  State.attached_congr (State.aside_detached.2.2.1.trans rfl) (by rw [State.port_detached, State.port_updPort, if_pos rfl, if_pos rfl]; rfl)
    (by rw [State.port_detached, State.port_updPort, if_pos rfl, if_pos rfl]; rfl)

end Detach

theorem exec_penChange_low {s : State} {x : Port} (h : s.attached x = true) :
    exec (.penChange x false) s =
      .next (s.engineEvent (s.holdsSlots x) (s.detached x fun y => { y with pen := false })) := by
  have hrun : s.inReset = false ∧ (s.port x).pen = true := by
    rw [State.attached] at h
    simp_all
  have hdetached : (s.updPort x fun y => { y with pen := false }).attached x = false := by
    simp [State.attached]
  change execPenChange x false s = _
  rw [execPenChange, State.changeAttach_of_attached h hdetached, hrun.1, hrun.2]
  rfl

/-- R168: a DETACH of an attached port but A. -/
theorem State.taken_detach_of_attached {s : State} (p : Port) {x : Port} (h : s.attached x = true) (hx : x ≠ .A) :
    s.taken p (.detach (portByte x)) =
      s.conclude p .detach (s.holdsSlots x) (s.detached x fun y => { y with cmdDetach := true })
        fun _ => { status := .ok } := by
  have hdetached : (s.updPort x fun y => { y with cmdDetach := true }).attached x = false := by
    simp [State.attached]
  change s.takeDetach p (portByte x) = _
  rw [State.takeDetach, portOfByte_portByte]
  cases x with
  | A => exact absurd rfl hx
  | B | C | D => simp only [State.changeAttach_of_attached h hdetached]

end Sys2Proof.Machine

open Sys2Proof Sys2Proof.Machine

/-- Settles O47: the leases of the port leave, and the port falls silent. -/
theorem detachTakesPortAway : Obligations.DetachTakesPortAway := by
  intro s x h hbind hqueue _ gone frame
  have hgone : ∀ y : PortState, { y.silence with attn := false } = gone y := fun y => by
    simp only [gone, PortState.silence]
    cases y.transaction <;> rfl
  refine ⟨?_, fun p hpx hx hn => ?_⟩
  · obtain ⟨htable, haside, hsteady, hpointer, hbuffer⟩ :=
      s.reads_of_engineEvent (s.detached x fun y => { y with pen := false }) (s.holdsSlots x)
    refine ⟨_, exec_penChange_low h, detachFrame_of_reads (by exact fun _ => ⟨rfl, rfl⟩) hbind hqueue htable haside hsteady,
      ?_, hpointer.trans State.pointer_detached, fun q hq => ?_⟩
    · rw [← hgone]
      refine State.port_settled_of_detached none _ ?_
      rw [State.attached_detached]
      simp [State.attached]
    · rw [hbuffer, State.port_detached, if_neg hq]
  · have htaken := State.taken_detach_of_attached p h hx
    obtain ⟨htable, haside, hsteady, hpointer, hanswer, hothers⟩ :=
      s.reads_closed ((s.detached x fun y => { y with cmdDetach := true }).settle (s.holdsSlots x)).1 none p .detach
        { status := .ok }
    refine ⟨_, (exec_instr_of_nextRequest hn).trans (congrArg _ htaken),
      detachFrame_of_reads (by exact fun _ => ⟨rfl, rfl⟩) hbind hqueue htable
        (aside_trans (onlyTable_settle _ _).aside haside)
        (State.portsSteady_of_port_eq (fun q => State.port_settle _ _ q) hsteady), ?_, hpointer, hanswer,
      fun q hqx hqp => ?_⟩
    · rw [← hgone, State.conclude, State.port_respond, if_neg (Ne.symm hpx)]
      refine State.port_settled_of_detached none _ ?_
      rw [State.attached_detached]
      simp [State.attached]
    · rw [State.conclude, hothers q hqp, State.port_settle, State.port_detached, if_neg hqx]

end

section
/-! SUPPORT. The placement of an ACQUIRE that is granted at once (R6, R30, R33). -/

namespace Sys2Proof.Machine

/-! ## The record of a placement (R6, R32) -/

theorem AcquireArgs.renewalSource_of_inRange {a : AcquireArgs} (h : ¬AcquireOutOfRange a) :
    a.renewalSource = if a.options.getLsbD 2 then some (Fin.ofNat 4 a.source.toNat) else none := by
  rw [AcquireArgs.renewalSource, AcquireArgs.sourceByte]
  cases hsource : a.options.getLsbD 2 with
  | false => rfl
  | true =>
    have hlt : a.source.toNat < 4 := Nat.lt_of_not_le fun hle =>
      h (.inr (.inr (.inr (.inr (.inr (.inr ⟨hsource, hle⟩))))))
    simp only [if_true, dif_pos hlt]
    exact congrArg some (Fin.ext (Nat.mod_eq_of_lt hlt).symm)

/-- The record of an ACQUIRE in range, as it waits. -/
theorem State.newLease_eq {s : State} {p : Port} {a : AcquireArgs} {level : Fin 4} (h : ¬AcquireOutOfRange a) :
    s.newLease p a level =
      { holder := p, tag := a.tag, lines := a.lines, level := level
        yieldable := a.options.getLsbD 0, term := a.term
        waitLimit := if a.options.getLsbD 1 then some a.waitLimit else none
        source := if a.options.getLsbD 2 then some (Fin.ofNat 4 a.source.toNat) else none
        cap := if a.options.getLsbD 3 then some a.cap else none
        flags := {}
        phase := .waiting
          ((if a.options.getLsbD 1 then some a.waitLimit else none).map fun w => s.clock.count + w.setWidth 32) } := by
  rw [State.newLease, AcquireArgs.renewalSource_of_inRange h]
  rfl

/-! ## The answer of a placement (R33, R158) -/

section Place

variable {s u : State} {p : Port} {a : AcquireArgs} {level : Fin 4} {i : Fin 16}

/-- R152: what a placement leaves: its own changes and what is settled of them, and the answer. -/
theorem exec_of_place {st : Status} {scan : Bool} (honly : OnlyTable s u) (hn : s.nextRequest = some (p, .acquire a))
    (h : s.taken p (.acquire a) = s.place p i st scan u) :
    ∃ t, exec .acquire s = .next t ∧ TableStands (u.settle scan).1 t ∧ Aside s t ∧ PortsSteady s t
      ∧ Answered s t p .acquire st ((u.settle scan).1.placedData i (u.settle scan).2) := by
  obtain ⟨htable, haside, hsteady, hpointer, hanswer, hothers⟩ :=
    s.reads_closed (u.settle scan).1 none p .acquire { status := st, data := (u.settle scan).1.placedData i (u.settle scan).2 }
  refine ⟨_, (exec_instr_of_nextRequest hn).trans (congrArg _ h), htable,
    aside_trans (honly.trans (onlyTable_settle u scan)).aside haside,
    State.portsSteady_of_port_eq (fun q => (u.port_settle scan q).trans (honly.port q)) hsteady, hpointer, hanswer,
    fun q hq => (hothers q hq).trans (by rw [State.port_settle, honly.port])⟩

theorem State.taken_acquire_of_granted (hcheck : s.checkAcquire p a = .ok (level, i))
    (horder : s.wouldBeEligible a.lines level.val = true) (hfree : s.allFree a.lines = true) :
    s.taken p (.acquire a) = s.place p i .ok false (s.grantNow i (s.newLease p a level)) := by
  change s.takeAcquire p a = _
  simp only [State.takeAcquire, hcheck, horder, hfree]
  rfl

theorem State.taken_acquire_of_queued (hcheck : s.checkAcquire p a = .ok (level, i))
    (hblocked : (s.wouldBeEligible a.lines level.val && s.allFree a.lines) = false) (hmode : a.isTry = false) :
    s.taken p (.acquire a) = s.place p i .queued true (s.placeWaiting i (s.newLease p a level)) := by
  change s.takeAcquire p a = _
  simp only [State.takeAcquire, hcheck, hblocked, hmode]
  rfl

/-- R33, R158: the data of a placement that stands WAITING, in its queue. -/
theorem State.placedData_of_waiting {t : State} {l : Lease} {entered : List (Fin 16)} (hl : t.leaseAt i = some l)
    (hw : l.isWaiting = true) (hi : i ∈ t.queue) :
    t.placedData i entered =
      t.handleBytes i ++ [0x01, 0x00, 0x00, BitVec.ofNat 8 (t.queue.idxOf i + 1)]
        ++ [if t.startedFor entered l.lines then 0x01 else 0x00] := by
  have hposition : t.position i = t.queue.idxOf i + 1 := by rw [State.position_eq, if_pos hi]
  simp only [State.placedData, hl, hw, if_true, hposition]
  cases hp : l.phase with
  | waiting d =>
    have hzero : bytes16 0 = [0x00, 0x00] := by decide
    rw [Lease.state, hp]
    dsimp only
    rw [hzero]
    rfl
  | active | yielding | ended => simp [Lease.isWaiting, hp] at hw

/-- R33, R158: and one that stands ACTIVE. -/
theorem State.placedData_of_active {t : State} {l : Lease} {g : Holding} {entered : List (Fin 16)}
    (hl : t.leaseAt i = some l) (hp : l.phase = .active g) :
    t.placedData i entered =
      t.handleBytes i ++ ([0x02] ++ bytes16 (t.ticksLeft g.expiry) ++ [0x00])
        ++ [if t.startedFor entered l.lines then 0x01 else 0x00] := by
  have hnot : l.isWaiting = false := by rw [Lease.isWaiting, hp]
  simp only [State.placedData, hl, hnot, hp, Lease.state]
  rfl

/-- R33, R158: a placement that was granted has its whole term left. -/
theorem State.placedData_of_granted {t : State} {gen : Byte} {l : Lease} {g : Holding} {entered : List (Fin 16)}
    (honly : OnlyTable s t) (hslot : t.slot i = { gen := gen, lease := some l }) (hp : l.phase = .active g)
    (hexpiry : g.expiry = s.clock.count + l.term.setWidth 32) :
    t.placedData i entered =
      [BitVec.ofNat 8 i.val, gen] ++ ([0x02] ++ bytes16 l.term ++ [0x00])
        ++ [if t.startedFor entered l.lines then 0x01 else 0x00] := by
  have hhandle : t.handleBytes i = [BitVec.ofNat 8 i.val, gen] := by
    rw [State.handleBytes, hslot]
    rfl
  rw [State.placedData_of_active (congrArg Slot.lease hslot) hp, hexpiry, honly.ticksLeft, State.ticksLeft_ahead, hhandle]

end Place

/-! ## A lease granted at once calls on nobody (R30, R67) -/

section GrantNow

variable {s : State} {i j : Fin 16} {l : Lease} (hfree : s.leaseAt i = none) (hbind : BindingLaw s)
  (hqueue : QueueLaw s) (horder : ¬OrderBlocked s l.lines l.level.val) (hlines : s.allFree l.lines = true)

include hfree hqueue in
theorem State.ne_of_mem_queue {w : Fin 16} (hw : w ∈ s.queue) : w ≠ i := fun hwi => by
  have hwait := (hqueue.2.1 w).1 hw
  rw [hwi, State.waitingAt, hfree] at hwait
  cases hwait

theorem State.slot_grantNow (k : Fin 16) : (s.grantNow i l).slot k =
    if k = i then { s.slot i with lease := some (l.grant s.clock.count (s.port l.holder).margin {}) } else s.slot k := by
  rw [State.grantNow, State.slot_updSlot, State.bindLines, State.slot_mapLines]
  split
  · rename_i h
    rw [h]
  · rfl

theorem State.leaseAt_grantNow_ne (hj : j ≠ i) : (s.grantNow i l).leaseAt j = s.leaseAt j := by
  rw [State.leaseAt_grantNow, if_neg hj]

include hfree hqueue in
theorem State.linesAt_grantNow_of_mem {w : Fin 16} (hw : w ∈ s.queue) : (s.grantNow i l).linesAt w = s.linesAt w := by
  rw [State.linesAt, State.leaseAt_grantNow_ne (State.ne_of_mem_queue hfree hqueue hw), State.linesAt]

include hfree hqueue in
theorem State.levelAt_grantNow_of_mem {w : Fin 16} (hw : w ∈ s.queue) : (s.grantNow i l).levelAt w = s.levelAt w := by
  rw [State.levelAt, State.leaseAt_grantNow_ne (State.ne_of_mem_queue hfree hqueue hw), State.levelAt]

include hfree hqueue horder in
/-- R29, R30: no waiter of a higher level intersects it. -/
theorem State.unthreatened_grantNow : (s.grantNow i l).unthreatened i := fun v hv hlevel => by
  rw [State.queue_grantNow] at hv
  have hself : (s.grantNow i l).leaseAt i = some (l.grant s.clock.count (s.port l.holder).margin {}) := by
    rw [State.leaseAt_grantNow, if_pos rfl]
  rw [State.levelAt_of_leaseAt hself, State.levelAt_grantNow_of_mem hfree hqueue hv] at hlevel
  rw [State.linesAt_of_leaseAt hself, State.linesAt_grantNow_of_mem hfree hqueue hv, intersects, bne_eq_false_iff_eq]
  exact by_contra fun hne => horder ⟨v, hv, Nat.le_of_lt hlevel, hne⟩

include hlines in
/-- A line that was bound is none of the placement's. -/
theorem State.line_grantNow_of_bound {m k : Fin 16} (hb : (s.line m).boundSlot = some k) :
    (s.grantNow i l).line m = s.line m := by
  rw [State.line_grantNow, if_neg]
  intro hm
  cases hb.symm.trans (Line.boundSlot_of_isFree (State.isFree_of_allFree hlines hm))

include hfree hbind hqueue hlines in
/-- R67: the placement makes nobody call on a lease. -/
theorem State.calledOn_of_grantNow (hj : j ≠ i) (h : (s.grantNow i l).calledOn j = true) : s.calledOn j = true := by
  obtain ⟨v, hv, hjust, hblocks⟩ := State.calledOn_iff.1 h
  obtain ⟨-, ho, -, hall⟩ := State.justifying_iff.1 hjust
  rw [State.queue_grantNow] at hv
  have hv' : (s.grantNow i l).linesAt v = s.linesAt v := State.linesAt_grantNow_of_mem hfree hqueue hv
  have hblocks' : s.blocks j v = true := by
    obtain ⟨m, hm, hb⟩ := State.blocks_iff.1 hblocks
    rw [hv'] at hm
    refine State.blocks_iff.2 ⟨m, hm, ?_⟩
    rw [State.line_grantNow] at hb
    split at hb
    · cases hb
      exact absurd rfl hj
    · exact hb
  refine State.calledOn_iff.2 ⟨v, hv, State.justifying_iff.2
    ⟨(hqueue.2.1 v).1 hv, ?_, ⟨j, hblocks'⟩, fun k hk => ?_⟩, hblocks'⟩
  · rw [State.orderEligible, List.all_eq_true] at ho ⊢
    rw [State.queue_grantNow] at ho
    intro w hw
    have := ho w hw
    rwa [hv', State.linesAt_grantNow_of_mem hfree hqueue (List.takeWhile_prefix _ |>.subset hw)] at this
  · obtain ⟨m, hm, hb⟩ := State.blocks_iff.1 hk
    have hki : k ≠ i := fun hki => by
      obtain ⟨b, hb', -⟩ := State.holdsLine_iff.1 ((hbind m k).1 hb)
      rw [hki, hfree] at hb'
      cases hb'
    have hyields := hall k
      (State.blocks_iff.2 ⟨m, by rwa [hv'], by rwa [State.line_grantNow_of_bound hlines hb]⟩)
    rwa [State.levelAt_grantNow_of_mem hfree hqueue hv, State.yieldsTo, State.leaseAt_grantNow_ne hki,
      ← State.yieldsTo] at hyields

include hfree hbind hqueue horder hlines in
/-- R30, R68: so no yield starts. -/
theorem State.unstarted_grantNow (hbind' : BindingLaw (s.grantNow i l)) (hy : YieldLaw s) (j : Fin 16)
    (hactive : (s.grantNow i l).activeAt j = true) : (s.grantNow i l).calledOn j = false := by
  by_cases hj : j = i
  · rw [hj]
    exact (State.unthreatened_grantNow hfree hqueue horder).calledOn hbind'
  · rw [State.activeAt, State.leaseAt_grantNow_ne hj, ← State.activeAt] at hactive
    rw [Bool.eq_false_iff]
    intro hcalled
    cases ((hy j).1 hactive).symm.trans (State.calledOn_of_grantNow hfree hbind hqueue hlines hj hcalled)

end GrantNow

/-- R41, R68: an evaluation that starts no yield is the last. -/
theorem State.settle_of_unstarted {s : State} (h : ∀ j, s.activeAt j = true → s.calledOn j = false) :
    s.settle false = (s.lastRound, []) := by
  have hnone : s.startingYields = [] := by
    rw [List.eq_nil_iff_forall_not_mem]
    intro j hj
    obtain ⟨hactive, hcalled⟩ := State.mem_startingYields.1 hj
    cases (h j hactive).symm.trans hcalled
  rw [State.settle, if_neg Bool.false_ne_true]
  refine (State.evaluate_last _ ?_).trans (by rw [hnone])
  rw [State.endingYields, hnone]
  rfl

/-- R72, R74: what an evaluation that starts no yield makes of a slot: it stands, or its yield is withdrawn. -/
theorem State.slot_lastRound_of_unstarted {s : State} {j : Fin 16} (h : s.activeAt j = true → s.calledOn j = false) :
    s.lastRound.slot j = s.slot j
      ∨ ∃ l g d, s.leaseAt j = some l ∧ l.phase = .yielding g d
          ∧ s.lastRound.slot j =
              { s.slot j with
                lease := some { l with phase := .active g, flags := { l.flags with yield := false, withdrawn := true } } } := by
  have hgen : (s.lastRound.slot j).gen = (s.slot j).gen := gen_keptByRounds.lastRound rfl
  have hlease := s.leaseAt_lastRound j
  have stands : s.lastRound.leaseAt j = s.leaseAt j → s.lastRound.slot j = s.slot j := congrArg₂ Slot.mk hgen
  cases hl : s.leaseAt j with
  | none => exact .inl (stands (by rw [hlease, hl]; rfl))
  | some l =>
    rw [hl, Option.map_some] at hlease
    have same : (if s.calledOn j then l.startYield (s.ahead (s.port l.holder).window) else l.withdraw) = l →
        s.lastRound.slot j = s.slot j := fun hsame => stands (by rw [hlease, hsame, hl])
    cases hp : l.phase with
    | waiting d | ended n c => exact .inl (same (by cases s.calledOn j <;> simp [Lease.startYield, Lease.withdraw, hp]))
    | active g =>
      refine .inl (same ?_)
      rw [h (State.activeAt_iff.2 ⟨l, g, hl, hp⟩)]
      simp [Lease.withdraw, hp]
    | yielding g d =>
      cases hcalled : s.calledOn j with
      | true => exact .inl (same (by simp [hcalled, Lease.startYield, hp]))
      | false =>
        refine .inr ⟨l, g, d, rfl, hp, congrArg₂ Slot.mk hgen (hlease.trans ?_)⟩
        simp [hcalled, Lease.withdraw, hp]

end Sys2Proof.Machine

open Sys2Proof Sys2Proof.Machine

/-- Settles O31: the placement binds its lines, and the evaluation that follows starts no yield. -/
theorem acquireGrantsAtOnce : Obligations.AcquireGrantsAtOnce := by
  intro s p a level i hn hbind hqueue hy hpass hlevel hlowest horder hline margin warned
  obtain ⟨hrange, -⟩ := id hpass
  obtain ⟨hfree, -⟩ := id hlowest
  have hcheck : s.checkAcquire p a = .ok (level, i) :=
    State.checkAcquire_of_passes hpass hlevel (State.lowestFree_of hlowest)
  have heligible := State.wouldBeEligible_iff.2 horder
  have hlines := State.allFree_iff_not_lineBlocked.2 hline
  obtain ⟨l, hl⟩ : ∃ l, l = s.newLease p a level := ⟨_, rfl⟩
  have htaken := State.taken_acquire_of_granted hcheck heligible hlines
  have hbind' := bindingLaw_moves (.grantNow (asker := some p) rfl hcheck heligible hlines) hbind
  rw [← hl] at htaken hbind'
  rw [State.newLease_eq hrange] at hl
  have hl_lines : l.lines = a.lines := by rw [hl]
  have hl_level : l.level = level := by rw [hl]
  have horder' : ¬OrderBlocked s l.lines l.level.val := by rwa [hl_lines, hl_level]
  have hlines' : s.allFree l.lines = true := by rwa [hl_lines]
  have hunstarted := State.unstarted_grantNow hfree hbind hqueue horder' hlines' hbind' hy
  have honly := onlyTable_grantNow s i l
  obtain ⟨t, hexec, ⟨htslot, htqueue, htline⟩, haside, hsteady, hanswered⟩ := exec_of_place honly hn htaken
  rw [State.settle_of_unstarted hunstarted] at htslot htqueue htline hanswered
  have hself := State.slot_grantNow (s := s) (i := i) (l := l) i
  rw [if_pos rfl] at hself
  have hround : (s.grantNow i l).lastRound.slot i = (s.grantNow i l).slot i :=
    (State.slot_lastRound_of_unstarted (hunstarted i)).resolve_right fun ⟨b, g, d, hb, hp, _⟩ => by
      cases (congrArg Slot.lease hself).symm.trans hb
      cases hp
  refine ⟨t, hexec, ?_, fun j hj => ?_, fun m => ?_, ?_, haside, hsteady, ?_⟩
  · rw [htslot, hround, hself, hl]
    rfl
  · rw [htslot j]
    have hround := State.slot_lastRound_of_unstarted (hunstarted j)
    rwa [State.leaseAt, State.slot_grantNow, if_neg hj, ← State.leaseAt] at hround
  · rw [htline, State.lastRound, State.line_withdrawYields, State.line_startYields, State.line_grantNow, hl_lines]
  · rw [htqueue, (sameBoard_lastRound _).queue, State.queue_grantNow]
  · have hdata := State.placedData_of_granted (entered := []) ((onlyTable_keptByRounds s).lastRound honly)
      (hround.trans hself) rfl rfl
    rw [hdata] at hanswered
    rw [hl] at hanswered
    exact hanswered

end

section
/-! SUPPORT. The placement of an ACQUIRE that waits (R32, R33, R35, R38, R41). -/

namespace Sys2Proof.Machine

/-! ## A scan that grants nobody (R39) -/

theorem State.grantScan_of_not_grantable {u : State} (hqueue : QueueLaw u) (h : ∀ w, u.grantable w = false) :
    u.grantScan = u := by
  have hscan := scanned_grantScan hqueue
  have hno : ∀ j, ¬(j ∈ u.queue ∧ u.grantable j = true) := fun j hj => by cases (h j).symm.trans hj.2
  refine State.ext_of_reads (s := u) (t := u.grantScan) (fun j => by rw [hscan.slot, if_neg (hno j)])
    (fun m => hscan.stands m fun j _ hj => by cases (h j).symm.trans hj) (fun q => hscan.only.port q)
    (fun n => hscan.only.input n) ?_ hscan.only.clock hscan.only.pointer hscan.only.inReset hscan.only.choices
    hscan.only.pending
  rw [hscan.queue]
  exact List.filter_eq_self.2 fun j _ => by rw [h j, Bool.and_false]; rfl

/-! ## The waiters after a placement (R35, R37) -/

section Placed

variable {s : State} {i : Fin 16} {l : Lease} {ahead behind : List (Fin 16)}

theorem State.slot_placeWaiting (k : Fin 16) :
    (s.placeWaiting i l).slot k = if k = i then { s.slot i with lease := some l } else s.slot k := by
  rw [State.placeWaiting, State.slot_updSlot, State.slot_setQueue]
  split
  · rename_i h
    rw [h]
  · rfl

theorem State.leaseAt_placeWaiting_self : (s.placeWaiting i l).leaseAt i = some l := by
  rw [State.leaseAt_placeWaiting, if_pos rfl]

theorem State.leaseAt_placeWaiting_ne {k : Fin 16} (hk : k ≠ i) : (s.placeWaiting i l).leaseAt k = s.leaseAt k := by
  rw [State.leaseAt_placeWaiting, if_neg hk]

theorem State.linesAt_placeWaiting_ne {k : Fin 16} (hk : k ≠ i) : (s.placeWaiting i l).linesAt k = s.linesAt k := by
  rw [State.linesAt, State.leaseAt_placeWaiting_ne hk, State.linesAt]

theorem State.allFree_placeWaiting (lines : LineSet) : (s.placeWaiting i l).allFree lines = s.allFree lines := by
  simp only [State.allFree, State.line_placeWaiting]

section Blocked

variable (hfree : s.leaseAt i = none) (hqueue : QueueLaw s) (hsplit : s.queue = ahead ++ behind)
  (hplaced : (s.placeWaiting i l).queue = ahead ++ i :: behind)

include hfree hqueue hsplit in
theorem State.not_mem_split : i ∉ ahead ∧ i ∉ behind := by
  have hi : i ∉ s.queue := fun hmem => State.ne_of_mem_queue hfree hqueue hmem rfl
  rw [hsplit, List.mem_append, not_or] at hi
  exact hi

include hfree hqueue hsplit hplaced in
/-- R29, R35: the new waiter is blocked as the placement found it. -/
theorem State.not_grantable_placed (hbehind : ∀ j ∈ behind, s.levelAt j < l.level.val)
    (hblocked : OrderBlocked s l.lines l.level.val ∨ LineBlocked s l.lines) :
    (s.placeWaiting i l).grantable i = false := by
  obtain ⟨hahead, -⟩ := State.not_mem_split hfree hqueue hsplit
  rw [Bool.eq_false_iff]
  intro hg
  obtain ⟨-, ho, hf⟩ := State.grantable_iff.1 hg
  have hlines : (s.placeWaiting i l).linesAt i = l.lines := State.linesAt_of_leaseAt State.leaseAt_placeWaiting_self
  obtain ⟨w, hw, hlevel, hmeet⟩ | hline := hblocked
  · have hmem : w ∈ ahead := by
      rw [hsplit] at hw
      exact (List.mem_append.1 hw).resolve_right fun hb => by
        have := hbehind w hb
        omega
    have hnot := (State.orderEligible_of_split hplaced hahead).1 ho w hmem
    rw [State.linesAt_placeWaiting_ne (fun h : w = i => hahead (h ▸ hmem)), hlines, intersects, bne_eq_false_iff_eq] at hnot
    exact hmeet hnot
  · rw [hlines, State.allFree_placeWaiting] at hf
    exact State.allFree_iff_not_lineBlocked.1 hf hline

include hfree hqueue hsplit hplaced in
/-- R37, R39: a placement lets no other waiter be granted. -/
theorem State.not_grantable_other (hg : GrantLaw s) {w : Fin 16} (hw : w ≠ i) :
    (s.placeWaiting i l).grantable w = false := by
  obtain ⟨hahead, hbehind⟩ := State.not_mem_split hfree hqueue hsplit
  rw [Bool.eq_false_iff]
  intro hgrant
  obtain ⟨hwait, ho, hf⟩ := State.grantable_iff.1 hgrant
  rw [State.waitingAt, State.leaseAt_placeWaiting_ne hw, ← State.waitingAt] at hwait
  rw [State.linesAt_placeWaiting_ne hw, State.allFree_placeWaiting] at hf
  have hfilter : s.queue = (s.placeWaiting i l).queue.filter fun j => j != i := by
    have keeps : ∀ q : List (Fin 16), i ∉ q → q.filter (fun j => j != i) = q := fun q hq =>
      List.filter_eq_self.2 fun j hj => bne_iff_ne.2 fun h => hq (h ▸ hj)
    rw [hplaced, hsplit, List.filter_append, List.filter_cons_of_neg (by simp), keeps ahead hahead, keeps behind hbehind]
  have ho' : s.orderEligible w = true := State.orderEligible_of_filter hfilter (bne_iff_ne.2 hw)
    (fun j hj => (State.linesAt_placeWaiting_ne (bne_iff_ne.1 hj)).symm) ho
  cases (hg w hwait ho').symm.trans hf

end Blocked

end Placed

/-! ## An evaluation that ends nobody (R68, R76) -/

theorem State.settle_of_no_zero_window {u : State} (hscan : u.grantScan = u) (hwindow : ∀ q, (u.port q).window ≠ 0) :
    u.settle true = (u.lastRound, u.startingYields) := by
  have hnone : u.endingYields = [] := by
    rw [List.eq_nil_iff_forall_not_mem]
    intro j hj
    obtain ⟨hactive, -, hzero⟩ := State.mem_endingYields.1 hj
    obtain ⟨l, g, hl, -⟩ := State.activeAt_iff.1 hactive
    exact hwindow _ ((State.zeroWindow_of_leaseAt hl).1 hzero)
  rw [State.settle, if_pos rfl, hscan]
  exact State.evaluate_last _ hnone

/-- R68, R69: an ACTIVE lease is YIELDING after the last round where its yield started. -/
theorem State.yieldingAt_lastRound {s : State} {j : Fin 16} (h : s.activeAt j = true) :
    s.lastRound.yieldingAt j = true ↔ j ∈ s.startingYields := by
  obtain ⟨l, g, hl, hp⟩ := State.activeAt_iff.1 h
  have hlease := s.leaseAt_lastRound j
  rw [hl, Option.map_some] at hlease
  rw [State.mem_startingYields, State.yieldingAt, hlease]
  cases hcalled : s.calledOn j <;> simp [Lease.startYield, Lease.withdraw, Lease.state, hp, h]

/-- R11: a waiter stands after the settling, or it was granted. -/
theorem State.slotMoved_of_waiting {u t : State} {j : Fin 16} {a : Lease} (hl : u.leaseAt j = some a)
    (hw : a.isWaiting = true) (h : u.slotMoved t j = true) :
    (t.slot j).gen = (u.slot j).gen
      ∧ (t.leaseAt j = some a
          ∨ t.leaseAt j = some (a.grant u.clock.count (u.port a.holder).margin Notices.grantedOnly)) := by
  rw [State.slotMoved, hl, Bool.and_eq_true, beq_iff_eq] at h
  obtain ⟨hgen, hmoved⟩ := h
  refine ⟨hgen, ?_⟩
  cases ht : t.leaseAt j with
  | none => rw [ht] at hmoved; cases hmoved
  | some b =>
    rw [ht] at hmoved
    cases hp : a.phase with
    | waiting d => simpa [State.moved, hp] using hmoved
    | active | yielding | ended => simp [Lease.isWaiting, hp] at hw

/-! ## The placement settled (R33, R41) -/

section Settled

variable {s u t : State} {p : Port} {i : Fin 16} {l : Lease} {ahead behind : List (Fin 16)}

/-- R33: which blockers the answer counts (log entry 22). -/
theorem State.startedFor_iff {entered : List (Fin 16)} {lines : LineSet} :
    t.startedFor entered lines = true ↔ ∃ j ∈ entered, t.linesAt j &&& lines ≠ 0 := by
  simp only [State.startedFor, List.any_eq_true, intersects, bne_iff_ne]

theorem State.linesAt_of_stands (h : TableStands u t) (j : Fin 16) : t.linesAt j = u.linesAt j := by
  rw [State.linesAt, State.leaseAt, h.1, ← State.leaseAt, ← State.linesAt]

theorem State.startedFor_of_stands (h : TableStands u t) (entered : List (Fin 16)) (lines : LineSet) :
    t.startedFor entered lines = u.startedFor entered lines := by
  simp only [State.startedFor, State.linesAt_of_stands h]

/-- R33, R158: the data of a placement that still waits once it is settled. -/
theorem State.placedData_of_queued {entered : List (Fin 16)} (hl : t.leaseAt i = some l) (hw : l.isWaiting = true)
    (hqueue : QueueLaw t) :
    t.placedData i entered =
      [BitVec.ofNat 8 i.val, (t.slot i).gen] ++ [0x01, 0x00, 0x00, BitVec.ofNat 8 (t.queue.idxOf i + 1)]
        ++ [if t.startedFor entered l.lines then 0x01 else 0x00] :=
  State.placedData_of_waiting hl hw ((hqueue.2.1 i).2 (State.waitingAt_iff.2 ⟨l, hl, hw⟩))

/-- R32, R33: the lease of a placement once it is settled, and the data of its answer. -/
theorem placed_or_granted (honly : OnlyTable s u) (hbind : BindingLaw u) (hqueue : QueueLaw u)
    (hl : u.leaseAt i = some l) (hw : l.isWaiting = true) {w : State} {entered : List (Fin 16)}
    (hsettled : u.settle true = (w, entered)) :
    (w.slot i).gen = (u.slot i).gen
      ∧ ((w.leaseAt i = some l
            ∧ w.placedData i entered =
                [BitVec.ofNat 8 i.val, (u.slot i).gen] ++ [0x01, 0x00, 0x00, BitVec.ofNat 8 (w.queue.idxOf i + 1)]
                  ++ [if w.startedFor entered l.lines then 0x01 else 0x00])
          ∨ (w.leaseAt i = some (l.grant s.clock.count (s.port l.holder).margin Notices.grantedOnly)
            ∧ w.placedData i entered =
                [BitVec.ofNat 8 i.val, (u.slot i).gen] ++ ([0x02] ++ bytes16 l.term ++ [0x00])
                  ++ [if w.startedFor entered l.lines then 0x01 else 0x00])) := by
  obtain ⟨hmoved, -, -⟩ := State.settled_frame hbind hqueue true
  have hwaiters := queueLaw_settle true hqueue
  have honly' := honly.trans (onlyTable_settle u true)
  rw [hsettled] at hmoved hwaiters honly'
  obtain ⟨hgen, hstands | hgranted⟩ := State.slotMoved_of_waiting hl hw (hmoved i)
  · refine ⟨hgen, .inl ⟨hstands, ?_⟩⟩
    rw [State.placedData_of_queued hstands hw hwaiters, hgen]
  · rw [honly.clock, honly.port] at hgranted
    refine ⟨hgen, .inr ⟨hgranted, ?_⟩⟩
    exact State.placedData_of_granted (l := l.grant s.clock.count (s.port l.holder).margin Notices.grantedOnly) honly'
      (congrArg₂ Slot.mk hgen hgranted) rfl rfl

/-- R11: a waiter stands after an evaluation. -/
theorem State.leaseAt_lastRound_of_waiting (hl : u.leaseAt i = some l) (hw : l.isWaiting = true) :
    u.lastRound.leaseAt i = some l := by
  rw [State.leaseAt_lastRound, hl, Option.map_some]
  cases hp : l.phase with
  | waiting d => cases u.calledOn i <;> simp [Lease.startYield, Lease.withdraw, hp]
  | active | yielding | ended => simp [Lease.isWaiting, hp] at hw

/-- A placement: the lease `l`, waiting in slot `i`, between the waiters `ahead` and `behind`. -/
structure Placement (s u : State) (i : Fin 16) (l : Lease) (ahead behind : List (Fin 16)) : Prop where
  placed : u = s.placeWaiting i l
  free : s.leaseAt i = none
  waits : l.isWaiting = true
  waiters : QueueLaw s
  split : s.queue = ahead ++ behind
  queue : u.queue = ahead ++ i :: behind
  behind : ∀ j ∈ behind, s.levelAt j < l.level.val

namespace Placement

variable (h : Placement s u i l ahead behind)

include h

theorem slot (k : Fin 16) : u.slot k = if k = i then { s.slot i with lease := some l } else s.slot k := by
  rw [h.placed, State.slot_placeWaiting]

theorem line (m : Fin 16) : u.line m = s.line m := by rw [h.placed, State.line_placeWaiting]

theorem leaseAt : u.leaseAt i = some l := by rw [h.placed, State.leaseAt_placeWaiting_self]

theorem only : OnlyTable s u := h.placed ▸ onlyTable_placeWaiting s i l

/-- R39, R41: where no yield window is 0, the scan grants nobody and one evaluation settles the placement. -/
theorem settle_alone (hqueue : QueueLaw u) (hgrants : GrantLaw s)
    (hblocked : OrderBlocked s l.lines l.level.val ∨ LineBlocked s l.lines) (hwindow : ∀ q, (s.port q).window ≠ 0) :
    u.settle true = (u.lastRound, u.startingYields) := by
  have hplaced : (s.placeWaiting i l).queue = ahead ++ i :: behind := h.placed ▸ h.queue
  have hscan : u.grantScan = u := State.grantScan_of_not_grantable hqueue fun k => by
    rw [h.placed]
    by_cases hk : k = i
    · rw [hk]
      exact State.not_grantable_placed h.free h.waiters h.split hplaced h.behind hblocked
    · exact State.not_grantable_other h.free h.waiters h.split hplaced hgrants hk
  exact State.settle_of_no_zero_window hscan fun q => by
    rw [h.only.port]
    exact hwindow q

/-- R33, R68: the yields that start then. -/
theorem mem_startingYields (j : Fin 16) :
    j ∈ u.startingYields ↔ s.activeAt j = true ∧ u.lastRound.yieldingAt j = true := by
  have hactive : u.activeAt j = s.activeAt j := by
    by_cases hj : j = i
    · have hnot : u.activeAt i = false := by
        rw [Bool.eq_false_iff]
        intro hactive
        obtain ⟨b, g, hb, hp⟩ := State.activeAt_iff.1 hactive
        cases h.leaseAt.symm.trans hb
        have hw := h.waits
        rw [Lease.isWaiting, hp] at hw
        cases hw
      rw [hj, hnot, State.activeAt, h.free]
    · rw [h.placed, State.activeAt, State.leaseAt_placeWaiting_ne hj, State.activeAt]
  rw [← hactive]
  constructor
  · intro hj
    have hact := (State.mem_startingYields.1 hj).1
    exact ⟨hact, (State.yieldingAt_lastRound hact).2 hj⟩
  · rintro ⟨hact, hyields⟩
    exact (State.yieldingAt_lastRound hact).1 hyields

/-- R32, R33, R35: what that evaluation leaves. -/
theorem reads_alone (htable : TableStands u.lastRound t) :
    t.leaseAt i = some l ∧ (∀ m, t.line m = s.line m) ∧ t.queue = ahead ++ i :: behind
      ∧ t.queue.idxOf i = ahead.length
      ∧ ∀ lines : LineSet, (∃ j ∈ u.startingYields, t.linesAt j &&& lines ≠ 0) ↔
          ∃ j, s.activeAt j = true ∧ t.yieldingAt j = true ∧ s.linesAt j &&& lines ≠ 0 := by
  obtain ⟨hslot, hqueue, hline⟩ := id htable
  have hboard := sameBoard_lastRound u
  have hqueue : t.queue = ahead ++ i :: behind := hqueue.trans (hboard.queue.trans h.queue)
  refine ⟨?_, fun m => ?_, hqueue, ?_, fun lines => ?_⟩
  · rw [State.leaseAt, hslot]
    exact State.leaseAt_lastRound_of_waiting h.leaseAt h.waits
  · rw [hline, State.lastRound, State.line_withdrawYields, State.line_startYields, h.line]
  · rw [hqueue, List.idxOf_append_of_notMem (State.not_mem_split h.free h.waiters h.split).1, List.idxOf_cons_self,
      Nat.add_zero]
  · have hlines : ∀ j, s.activeAt j = true → t.linesAt j = s.linesAt j := fun j hj => by
      have hne : j ≠ i := fun hji => by
        rw [hji, State.activeAt, h.free] at hj
        cases hj
      rw [State.linesAt_of_stands htable, linesAt_of_standing hboard.leases, h.placed, State.linesAt_placeWaiting_ne hne]
    have hyields : ∀ j, t.yieldingAt j = u.lastRound.yieldingAt j := fun j => by
      rw [State.yieldingAt, State.leaseAt, hslot, ← State.leaseAt, ← State.yieldingAt]
    simp only [h.mem_startingYields, hyields, and_assoc]
    exact exists_congr fun j => and_congr_right fun hj => by rw [hlines j hj]

end Placement

end Settled

end Sys2Proof.Machine

open Sys2Proof Sys2Proof.Machine

/-- Settles O32: the placement stands between the waiters of the queue, and what is settled of it is seen from the
state before; where no yield window is 0, one evaluation settles it. -/
theorem acquireWaitIsQueued : Obligations.AcquireWaitIsQueued := by
  intro s p a level i hn hbind hqueue _ hgrants hpass hlevel hlowest hmode hblocked limit placed margin warned granted
  obtain ⟨hrange, -⟩ := id hpass
  have hcheck : s.checkAcquire p a = .ok (level, i) :=
    State.checkAcquire_of_passes hpass hlevel (State.lowestFree_of hlowest)
  have hnot : (s.wouldBeEligible a.lines level.val && s.allFree a.lines) = false := by
    rw [Bool.eq_false_iff, Ne, Bool.and_eq_true, State.wouldBeEligible_iff, State.allFree_iff_not_lineBlocked, not_and_or,
      not_not, not_not]
    exact hblocked
  have htaken := State.taken_acquire_of_queued hcheck hnot (by rw [AcquireArgs.isTry, hmode]; rfl)
  have hbind' := bindingLaw_moves (.placeWaiting (asker := some p) rfl hcheck) hbind
  have hqueue' := queueLaw_moves (.placeWaiting (asker := some p) rfl hcheck) hqueue
  have hl : s.newLease p a level = placed := State.newLease_eq hrange
  rw [hl] at htaken hbind' hqueue'
  obtain ⟨ahead, behind, hsplit, hplaced, hahead, hbehind⟩ := enqueue_split s.levelAt i level.val hqueue.2.2
  obtain ⟨u, hu⟩ : ∃ u, u = s.placeWaiting i placed := ⟨_, rfl⟩
  rw [← hu] at htaken hbind' hqueue'
  have h : Placement s u i placed ahead behind := ⟨hu, hlowest.1, rfl, hqueue, hsplit, hu ▸ hplaced, hbehind⟩
  have halike : SettlesAlike s u := settlesAlike_of_onlyTable h.only
  obtain ⟨t, hexec, htable, haside, hsteady, hanswered⟩ := exec_of_place h.only hn htaken
  have hsettledFrom : SettledFrom u t true := htable
  obtain ⟨w, entered, hsettled⟩ : ∃ w entered, u.settle true = (w, entered) := ⟨_, _, rfl⟩
  have hanswered : Answered s t p .acquire .queued (w.placedData i entered) := by rwa [hsettled] at hanswered
  obtain ⟨hgen, hcases⟩ := placed_or_granted h.only hbind' hqueue' h.leaseAt rfl hsettled
  obtain ⟨hmoved, -, -⟩ := State.settled_frame hbind' hqueue' true
  have hgen' : (u.slot i).gen = (s.slot i).gen := by rw [h.slot, if_pos rfl]
  rw [hsettled] at htable hmoved
  obtain ⟨htslot, htqueue, -⟩ := id htable
  have hstarted : w.startedFor entered a.lines = true ↔ ∃ j ∈ entered, t.linesAt j &&& a.lines ≠ 0 := by
    rw [← State.startedFor_of_stands htable, State.startedFor_iff]
  refine ⟨t, u, ahead, behind, w.startedFor entered a.lines, hexec, hsplit, hahead, hbehind,
    ⟨h.slot, h.line, h.queue, halike⟩, hsettledFrom, by rw [hsettled]; exact hstarted, ?gen, ?answers,
    fun j hj => ?other, haside, hsteady, fun hwindow => ?alone⟩
  case gen => rw [htslot, hgen, hgen']
  case answers =>
    rw [hgen'] at hcases
    obtain ⟨hstands, hdata⟩ | ⟨hgranted, hdata⟩ := hcases
    · rw [hdata] at hanswered
      refine .inl ⟨(congrArg Slot.lease (htslot i)).trans hstands, ?_⟩
      rw [htqueue]
      exact hanswered
    · rw [hdata] at hanswered
      exact .inr ⟨(congrArg Slot.lease (htslot i)).trans hgranted, hanswered⟩
  case other =>
    rw [State.slotMoved_of_alike (by rw [h.slot, if_neg hj]) halike, State.slotMoved_of_slot (htslot j)]
    exact hmoved j
  case alone =>
    cases hsettled.symm.trans (h.settle_alone hqueue' hgrants hblocked hwindow)
    obtain ⟨hlease, hline, hqueueAt, hposition, hyields⟩ := h.reads_alone htable
    exact ⟨hlease, hline, hqueueAt, hposition, hstarted.trans (hyields a.lines)⟩

end
